-- ==== Sys2Proof/Word.lean ====
section
/-! DEFINITION. The byte of the part's messages, records and frames. -/

namespace Sys2Proof

/-- A byte of a port message, of a frame on the line or of frame memory. -/
abbrev Byte := BitVec 8

end Sys2Proof
end

