-- ==== Sys2Proof/Syntax.lean ====
section
/-! DEFINITION. The commands of the part: one constructor of Instr for each row of spec/opcode_table.json, and the
request that a host's envelope carries. The table gives its rows no bits and no operands; the operands here are what
the row's rule needs from outside: a port, a job slot, a level on an input pin. -/

namespace Sys2Proof

/-- A host port, 0..3 (00_scope.md, Numbering). -/
abbrev Port := Fin 4

/-- A profile number, 0..3. -/
abbrev ProfileId := Fin 4

/-- A class, 0..3; 3 is the most urgent. -/
abbrev Class := Fin 4

/-- A job slot, 0..23. -/
abbrev SlotId := Fin 24

/-- A subscription entry, 0..15. -/
abbrev EntryId := Fin 16

/-- An edge of SCKn (R159). A rising edge carries the level of SDIn that the port takes there. -/
inductive Edge where
  | rising (sdi : Bool)
  | falling
  deriving DecidableEq, Repr

/-- The requests of the routing table of R170. -/
inductive RequestKind where
  | hello | openSession | closeSession | setAttn | noticeFetch | lineQuery
  | profileSet | profileGet
  | submit | keep | release | cancel | jobQuery
  | subscribe | unsubscribe | subEnable | subList
  | ringSet | ringRead | ringQuery
  deriving DecidableEq, Repr

/-- A request that passed the port's checks and is handed to its block (R165): the parts of its envelope that
the block and the response need. -/
structure Request where
  kind : RequestKind
  tag  : Byte
  body : List Byte
  deriving DecidableEq, Repr

/-- The part's steps, one for each row of spec/opcode_table.json, in the table's order. Each is whole and
indivisible. A request command names the port whose pending request its block takes; the request itself, with its
body, stands in that port's state (R161). -/
inductive Instr where
  | fullReset (straps : BitVec 4)
  | lineTick
  | millisecondTick
  | detectMark
  | detectSpace
  | markTooLong
  | leaderSpaceTooLong
  | endGapReached
  | closingGapReached
  | holdWindowExpiry
  | guardComplete
  | repeatPeriodExpiry
  | driveDone
  | collision
  | backoffExpiry (slot : SlotId)
  | deadlineExpiry (slot : SlotId)
  | leaseExpiry (slot : SlotId)
  | select (p : Port)
  | deselect (p : Port)
  | hello (p : Port)
  | openSession (p : Port)
  | closeSession (p : Port)
  | setAttn (p : Port)
  | noticeFetch (p : Port)
  | lineQuery (p : Port)
  | profileSet (p : Port)
  | profileGet (p : Port)
  | submit (p : Port)
  | keep (p : Port)
  | release (p : Port)
  | cancel (p : Port)
  | jobQuery (p : Port)
  | subscribe (p : Port)
  | unsubscribe (p : Port)
  | subEnable (p : Port)
  | subList (p : Port)
  | ringSet (p : Port)
  | ringRead (p : Port)
  | ringQuery (p : Port)
  | serialClockEdge (p : Port) (edge : Edge)
  deriving DecidableEq, Repr

end Sys2Proof
end

