-- ==== Sys2Proof/Decode.lean ====
section
/-! DEFINITION. Reading the codes of R182. The rows of spec/opcode_table.json carry no bits, so no word spells a
command and decodeTableWord answers none. What the part does decode is the code byte of a request envelope, and that
decoding and its encoder stand here too. -/

namespace Sys2Proof

/-- The command that a word spells by the bits of spec/opcode_table.json. No row gives any bits: none. -/
def decodeTableWord (_nbits _w : Nat) : Option Instr := none

/-- R182: the code byte of each request. -/
def RequestKind.code : RequestKind → Byte
  | .hello => 0x01
  | .openSession => 0x02
  | .closeSession => 0x03
  | .setAttn => 0x04
  | .noticeFetch => 0x05
  | .lineQuery => 0x06
  | .profileSet => 0x10
  | .profileGet => 0x11
  | .submit => 0x20
  | .keep => 0x21
  | .release => 0x22
  | .cancel => 0x23
  | .jobQuery => 0x24
  | .subscribe => 0x30
  | .unsubscribe => 0x31
  | .subEnable => 0x32
  | .subList => 0x33
  | .ringSet => 0x40
  | .ringRead => 0x41
  | .ringQuery => 0x42

/-- R182: the request a code byte names; none is UNKNOWN_REQUEST at check 4 of R164. -/
def RequestKind.ofCode (c : Byte) : Option RequestKind :=
  match c.toNat with
  | 0x01 => some .hello
  | 0x02 => some .openSession
  | 0x03 => some .closeSession
  | 0x04 => some .setAttn
  | 0x05 => some .noticeFetch
  | 0x06 => some .lineQuery
  | 0x10 => some .profileSet
  | 0x11 => some .profileGet
  | 0x20 => some .submit
  | 0x21 => some .keep
  | 0x22 => some .release
  | 0x23 => some .cancel
  | 0x24 => some .jobQuery
  | 0x30 => some .subscribe
  | 0x31 => some .unsubscribe
  | 0x32 => some .subEnable
  | 0x33 => some .subList
  | 0x40 => some .ringSet
  | 0x41 => some .ringRead
  | 0x42 => some .ringQuery
  | _ => none

/-- R182, column Body L: the body lengths the port accepts for a request at check 5 of R164. -/
def RequestKind.allowsLength (k : RequestKind) (len : Nat) : Bool :=
  match k with
  | .hello | .openSession | .lineQuery | .subList | .ringQuery => len == 0
  | .closeSession | .setAttn | .noticeFetch | .profileGet | .unsubscribe | .ringRead => len == 1
  | .keep | .release | .cancel | .jobQuery | .subEnable => len == 2
  | .ringSet => len == 4
  | .subscribe => len == 5
  | .profileSet => len == 22
  | .submit => 11 ≤ len && len ≤ 17

/-- R170, column Needs an open session: HELLO and OPEN alone do not. -/
def RequestKind.needsSession : RequestKind → Bool
  | .hello | .openSession => false
  | _ => true

end Sys2Proof
end

