-- ==== Sys2Proof/Config.lean ====
section
/-! DEFINITION. The numbers the manual fixes for every VS-240. No value here is open: the manual leaves no result
free, so this file holds no opaque constant. -/

namespace Sys2Proof.Config

/-- R2: MS increases at every thousandth line tick. -/
def ticksPerMs : Nat := 1000

/-- R107: the quiet measure stays at this value, one second, once it reaches it. -/
def quietMax : Nat := 1000000

/-- R108: the noise gap in µs while the listening set is empty. -/
def emptyNoiseGap : Nat := 4000

/-- R35, R102: the most jobs and notices of one port together, and the length of a notice queue. -/
def noticeRoom : Nat := 8

/-- R1: CLK periods in one line tick. -/
def clkPerTick : Nat := 8

/-- R10: CLK periods in one millisecond, the dividend of the carrier period. -/
def clkPerMs : Nat := 8000

/-- R143: bytes of frame memory. -/
def memBytes : Nat := 2048

/-- R143: slots of frame memory. -/
def memSlots : Nat := 128

/-- R143: bytes of one slot of frame memory. -/
def slotBytes : Nat := 16

/-- R186: the byte of a ring record that holds missed. -/
def missedOffset : Nat := 11

/-- R144: the greatest ring depth. -/
def maxDepth : Nat := 64

/-- R176: the greatest count a NOTICE_FETCH or a RING_READ may ask for. -/
def maxRead : Nat := 4

/-- R184: the identity code that HELLO reports. -/
def identity : Nat := 0x0240

/-- R184: the revision number that HELLO reports. -/
def revision : Nat := 1

/-- R176, R184: the capacities HELLO reports, in its order. -/
def capacities : List Nat := [4, 24, 4, 4, 16, 128, 64, 8, 3, 30, 4]

/-- R181: the state byte before a response. -/
def stateReady : Byte := 0xA5

/-- R181: the state byte when the buffer holds no response. -/
def stateEmpty : Byte := 0x5A

/-- R181: the state byte of a refused transaction. -/
def stateBusy : Byte := 0xC3

/-- R181: the byte the part clocks out when it has nothing left to say. -/
def filler : Byte := 0x00

/-- R163: the first byte of a read-only transaction. -/
def readOnlyMark : Byte := 0xFF

end Sys2Proof.Config
end

