-- ==== Sys2Proof/Machine/State.lean ====
section
/-! DEFINITION. The state of the part, block by block, as plain data, and its value after full reset. -/

namespace Sys2Proof.Machine

/-- Why the part stops with a fault. No rule of the manual stops the part, no request or event names an address
outside the part's stores, and no command of this model answers a fault: the type has no constructor. -/
inductive Fault where
  deriving DecidableEq, Repr

/-- Why a command has no outcome. -/
inductive Refusal where
  /-- Raised by exec's arm of a command that has no meaning yet, with its mnemonic. Safe: the run stops. No arm
  raises it: every command has its meaning. -/
  | notModelled (mnemonic : String)
  deriving DecidableEq, Repr

/-- R3: a schedule timer. `none` is stopped. `some n` holds n milliseconds; at `some 0` the timer has run out and its
expiry, an event of its own, has not yet been taken. -/
abbrev Timer := Option Nat

/-! ### Profiles (PT) -/

/-- R5, R7: the shape of a bit. -/
inductive Coding where
  | pdist | pwidth | split
  deriving DecidableEq, Repr

/-- R5, R8. -/
inductive LengthMode where
  | fixed | counted
  deriving DecidableEq, Repr

/-- R5, R9. -/
inductive CheckKind where
  | noCheck | sum8 | crc8
  deriving DecidableEq, Repr

/-- R5 repeat_form, and the form of a transmission in flight (R68, R69). -/
inductive Form where
  | full | marker
  deriving DecidableEq, Repr

/-- R5: the fields of a defined profile. -/
structure Profile where
  coding         : Coding
  cellUs         : Nat
  carrierKhz     : Nat
  duty           : Nat
  leaderMark     : Nat
  leaderSpace    : Nat
  lengthMode     : LengthMode
  fixedLen       : Nat
  check          : CheckKind
  repeatForm     : Form
  repeatSpace    : Nat
  repeatPeriodMs : Nat
  holdWindowMs   : Nat
  endGap         : Nat
  guardCells     : Nat
  backoffBaseMs  : Nat
  attemptDefault : Nat
  deriving DecidableEq, Repr

/-! ### Jobs (JT) -/

/-- R22 kind. -/
inductive JobKind where
  | oneshot | burst | held
  deriving DecidableEq, Repr

/-- R23. -/
inductive JobState where
  | queued | starting | sending | gap | suspended | backoff
  deriving DecidableEq, Repr

/-- R22 end_pending, when it is not absent. -/
inductive EndPending where
  | released | lapsed
  deriving DecidableEq, Repr

/-- R87. -/
inductive JobOutcome where
  | sent | released | lapsed | expired | cancelled | gaveUp
  deriving DecidableEq, Repr

/-- R22: a job record that is not FREE, less its slot and ticket, with the job's three timers (R39 to R41). -/
structure Job where
  owner           : Port
  epoch           : Byte
  key             : Byte
  cls             : Class
  kind            : JobKind
  burstCount      : Option Nat
  profile         : ProfileId
  address         : Byte
  data            : List Byte
  deadlineMs      : Option Nat
  lease           : Option Nat
  attemptLimit    : Nat
  state           : JobState
  sent            : Nat
  attempts        : Nat
  collisionsTotal : Nat
  merges          : Nat
  started         : Bool
  cancelPending   : Bool
  endPending      : Option EndPending
  resumeFull      : Bool
  orphan          : Bool
  submitTag       : Byte
  deadlineTimer   : Timer
  leaseTimer      : Timer
  backoffTimer    : Timer
  deriving DecidableEq, Repr

/-- R20: a job slot keeps its ticket when it is FREE. -/
structure JobSlot where
  ticket : Byte
  job    : Option Job
  deriving DecidableEq, Repr

/-! ### The line arbiter (LA) -/

/-- R45: where a candidate came from. -/
inductive Origin where
  | queue | stack
  deriving DecidableEq, Repr

/-- R45, R49: the line position. -/
inductive LinePosition where
  | empty
  | candidate (slot : SlotId) (origin : Origin)
  | holder (slot : SlotId)
  deriving DecidableEq, Repr

/-- R45, R52: a running guard. -/
structure GuardCount where
  count  : Nat
  target : Nat
  deriving DecidableEq, Repr

/-- R45: the arbiter's state. Queues are head first, the stack is bottom first, and the backoff set is kept in
increasing order, so that equal sets are equal data. -/
structure Arbiter where
  queues      : Vector (List SlotId) 4
  stack       : List SlotId
  position    : LinePosition
  guard       : Option GuardCount
  repeatTimer : Timer
  periodDone  : Bool
  backoff     : List SlotId
  deriving DecidableEq, Repr

/-! ### The transmitter (TX) -/

/-- A level of the line: mark is active (00_scope.md). -/
inductive Level where
  | space | mark
  deriving DecidableEq, Repr

/-- R68, R70: a mark or space of a transmission with its length in line ticks. -/
structure Segment where
  level : Level
  ticks : Nat
  deriving DecidableEq, Repr

/-- R68: the transmission in flight. The last three fields are what TX read from the profile at the frame start
(R19): cell_us, and the carrier's period and on part in CLK periods (R10; a period of 0 is no carrier). -/
structure Drive where
  slot          : SlotId
  form          : Form
  segments      : List Segment
  position      : Nat
  driven        : Nat
  cellUs        : Nat
  carrierPeriod : Nat
  carrierOn     : Nat
  deriving DecidableEq, Repr

/-- R68: `drive` is `none` while the sequencer is IDLE. `pin` is the level of DRIVE in each of the eight CLK periods
of the line tick being driven, bit k for the k-th of them; all low is a space. -/
structure Transmitter where
  drive    : Option Drive
  disagree : Nat
  pin      : BitVec 8
  deriving DecidableEq, Repr

/-! ### The receiver (RX) -/

/-- R106: the shape of a winner. -/
inductive Shape where
  | frame | marker
  deriving DecidableEq, Repr

/-- R119. -/
inductive ErrorKind where
  | violation | truncated | length | check
  deriving DecidableEq, Repr

/-- R106: what the decoder holds while in BITS. `expected` is N once it is known (R114). -/
structure Decoding where
  winner   : ProfileId
  shape    : Shape
  bits     : List Bool
  expected : Option Nat
  halves   : List Level
  deriving DecidableEq, Repr

/-- R106: the decoder's state. LEADER is two constructors: while its mark is measured, and while its space is
measured with the candidates known. `longest` is the largest nominal of the candidates at their judgement, in half
cells times cell_us (R112). TAIL names the winner whose end gap it waits out with that gap in µs, or `none` for the
noise gap (R113, R119). -/
inductive Decoder where
  | idle
  | leaderMark
  | leaderSpace (candidates : List ProfileId) (longest : Nat)
  | bits (d : Decoding)
  | tail (own : Option (ProfileId × Nat))
  | echo
  deriving DecidableEq, Repr

/-- A frame as decoded or sent: profile, address and data list. -/
structure Frame where
  profile : ProfileId
  address : Byte
  data    : List Byte
  deriving DecidableEq, Repr

/-- R121: a hold of the repeat tracker. -/
structure Hold where
  frame     : Frame
  repeats   : Nat
  startTime : BitVec 32
  lastTime  : BitVec 32
  deriving DecidableEq, Repr

/-- R106. `markTicks` is the length so far of the mark on DETECT (R108); a space's length so far is the quiet
measure. `tracker` is `none` for NONE. -/
structure Receiver where
  level      : Level
  quiet      : Nat
  markTicks  : Nat
  decoder    : Decoder
  tracker    : Option Hold
  holdTimer  : Timer
  deriving DecidableEq, Repr

/-! ### Delivery (DU) and frame memory (FM) -/

/-- R125, R139: the kinds of event and of record. -/
inductive RecordKind where
  | new | repeated | release | error | sentLocal
  deriving DecidableEq, Repr

/-- R127: a subscription entry in use. `kinds` is the kinds set of R182, one bit a kind. -/
structure Entry where
  owner   : Port
  profile : ProfileId
  value   : Byte
  mask    : Byte
  kinds   : BitVec 5
  enabled : Bool
  deriving DecidableEq, Repr

/-- R144 policy. -/
inductive Policy where
  | keepOld | keepNew
  deriving DecidableEq, Repr

/-- R144: the descriptor of a defined ring. -/
structure Ring where
  base          : Nat
  depth         : Nat
  policy        : Policy
  head          : Nat
  count         : Nat
  pendingMissed : Nat
  deriving DecidableEq, Repr

/-! ### Host ports (HP) -/

/-- R160, R161. -/
inductive TxnState where
  | idle | selected | executing
  deriving DecidableEq, Repr

/-- R170, R182: the statuses. -/
inductive Status where
  | ok | merged | deferred | tooLate
  | badCheck | truncated | badLength | unknownRequest | noSession | alreadyOpen
  | badValue | noProfile | badProfile | inUse | noRoom | tableFull | noJob | notOwner | wrongKind
  | badRange | overlap | ringNotEmpty
  deriving DecidableEq, Repr

/-- R168, R181: a response envelope, less the length and check bytes that its other parts fix. -/
structure Response where
  code   : Byte
  tag    : Byte
  status : Status
  body   : List Byte
  deriving DecidableEq, Repr

/-- R101. -/
structure Notice where
  slot            : SlotId
  ticket          : Byte
  submitTag       : Byte
  key             : Byte
  outcome         : JobOutcome
  sent            : Nat
  collisionsTotal : Nat
  merges          : Nat
  endTime         : BitVec 16
  deriving DecidableEq, Repr

/-- R160: a host port, with its pins. `selectLow` and `clockHigh` are the levels of nSELn and SCKn; `sdo` is the bit
on SDOn, `none` while it is not driven. `bitsIn` are the bits of the byte being received, `out` the bytes the
transaction clocks out before filler, and `outBit` the number of outgoing bits already past. `attn` is ATTNn. -/
structure HostPort where
  selectLow : Bool
  clockHigh : Bool
  sdo       : Option Bool
  txn       : TxnState
  refused   : Bool
  bitsIn    : List Bool
  received  : List Byte
  out       : List Byte
  outBit    : Nat
  request   : Option Request
  response  : Option Response
  isOpen    : Bool
  epoch     : Byte
  notices   : List Notice
  threshold : Nat
  attn      : Bool
  deriving DecidableEq, Repr

/-- The part (00_scope.md, The part at a glance): the timebase's tick count within the millisecond, MS and STN; the
profile table; the job table; the arbiter; the transmitter; the receiver; the subscription table and the delivery
sequences; the frame memory and the ring descriptors; the host ports; and the commands that wait to be taken. -/
structure State where
  tickCount : Nat
  ms        : BitVec 32
  stn       : BitVec 4
  profiles  : Vector (Option Profile) 4
  jobs      : Vector JobSlot 24
  la        : Arbiter
  tx        : Transmitter
  rx        : Receiver
  entries   : Vector (Option Entry) 16
  seqs      : Vector (BitVec 16) 4
  mem       : List Host.Cell
  rings     : Vector (Option Ring) 4
  ports     : Vector HostPort 4
  pending   : List Instr
  deriving DecidableEq, Repr

/-- R45, column After full reset. -/
def Arbiter.reset : Arbiter :=
  { queues := Vector.replicate 4 [], stack := [], position := .empty, guard := none, repeatTimer := none,
    periodDone := false, backoff := [] }

/-- R68, column After full reset. -/
def Transmitter.reset : Transmitter := { drive := none, disagree := 0, pin := 0 }

/-- R106, column After full reset. DESIGN CHOICE (log 3): the line level, which the part takes at the first tick, is
space until then. -/
def Receiver.reset : Receiver :=
  { level := .space, quiet := 0, markTicks := 0, decoder := .idle, tracker := none, holdTimer := none }

/-- R160, column After full reset. DESIGN CHOICE (log 2): the host's pins are at their resting levels, nSELn high and
SCKn low. -/
def HostPort.reset : HostPort :=
  { selectLow := false, clockHigh := false, sdo := none, txn := .idle, refused := false, bitsIn := [],
    received := [], out := [], outBit := 0, request := none, response := none, isOpen := false, epoch := 0,
    notices := [], threshold := 1, attn := false }

/-- The part after full reset: R2, R5, R20, R45, R68, R106, R127, R140, R143, R144, R160. DESIGN CHOICE (log 1): the
station straps are all low, so STN is 0 (R4). The queue of waiting commands is empty. -/
def State.reset : State :=
  { tickCount := 0, ms := 0, stn := 0, profiles := Vector.replicate 4 none,
    jobs := Vector.replicate 24 { ticket := 0, job := none }, la := .reset, tx := .reset, rx := .reset,
    entries := Vector.replicate 16 none, seqs := Vector.replicate 4 0, mem := [], rings := Vector.replicate 4 none,
    ports := Vector.replicate 4 .reset, pending := [] }

end Sys2Proof.Machine
end

