-- ==== Sys2Proof/Machine/Memory.lean ====
section
/-! DEFINITION. The frame memory as bytes: 2048 addresses, 16 to a slot (R143). It is a list of address and byte in
one canonical form: addresses strictly rising and below 2048, and no byte equal to 0, which is what an unlisted
address reads as (DESIGN CHOICE, log 4: no host can see a byte of a slot that holds no record). -/

namespace Sys2Proof.Machine

/-- The byte at an address; 0 where nothing is listed. -/
def Memory.read (a : Nat) : List Host.Cell → Byte
  | [] => 0
  | c :: m => if c.1 = a then c.2 else Memory.read a m

/-- The list with the byte at an address replaced; a byte of 0 is not listed. -/
def Memory.insert (a : Nat) (b : Byte) : List Host.Cell → List Host.Cell
  | [] => if b = 0 then [] else [(a, b)]
  | c :: m =>
    if a < c.1 then (if b = 0 then c :: m else (a, b) :: c :: m)
    else if a = c.1 then (if b = 0 then m else (a, b) :: m)
    else c :: Memory.insert a b m

/-- A write of one byte. No rule writes outside the memory (R145); there is no byte there to change. -/
def Memory.write (a : Nat) (b : Byte) (m : List Host.Cell) : List Host.Cell :=
  if a < Config.memBytes then Memory.insert a b m else m

/-- A write of bytes at rising addresses from a. -/
def Memory.writeBytes (a : Nat) : List Byte → List Host.Cell → List Host.Cell
  | [], m => m
  | b :: bs, m => Memory.writeBytes (a + 1) bs (Memory.write a b m)

/-- n bytes from address a. -/
def Memory.readBytes (m : List Host.Cell) (a : Nat) : Nat → List Byte
  | 0 => []
  | n + 1 => Memory.read a m :: Memory.readBytes m (a + 1) n

/-- The canonical form, for a list whose addresses must all be at least `low`. -/
def Memory.wfFrom (low : Nat) : List Host.Cell → Bool
  | [] => true
  | c :: m => decide (low ≤ c.1) && decide (c.1 < Config.memBytes) && decide (c.2 ≠ 0) && Memory.wfFrom (c.1 + 1) m

/-- The canonical form. -/
def Memory.wf (m : List Host.Cell) : Bool := Memory.wfFrom 0 m

/-- R143: the address of the first byte of a frame-memory slot. -/
def slotAddress (k : Nat) : Nat := k * Config.slotBytes

/-- A slot's 16 bytes written. -/
def Memory.writeSlot (k : Nat) (bytes : List Byte) (m : List Host.Cell) : List Host.Cell :=
  Memory.writeBytes (slotAddress k) (bytes.take Config.slotBytes) m

/-- R143: a slot that stops holding a record shows nothing; its bytes go back to what an unlisted address reads. -/
def Memory.clearSlot (k : Nat) (m : List Host.Cell) : List Host.Cell :=
  Memory.writeBytes (slotAddress k) (List.replicate Config.slotBytes 0) m

/-- A slot's 16 bytes. -/
def Memory.readSlot (k : Nat) (m : List Host.Cell) : List Byte :=
  Memory.readBytes m (slotAddress k) Config.slotBytes

end Sys2Proof.Machine
end

