-- ==== Sys2Proof/Machine/Ops.lean ====
section
/-! DEFINITION. The named operations over the part's records that every block shares: looking up and changing a job,
a profile, a port; schedule timers; counts of references. -/

namespace Sys2Proof.Machine

/-! ### Numbers and bytes -/

/-- A number as a byte; numbers that a layout places are in range, so nothing is lost. -/
def byte (n : Nat) : Byte := BitVec.ofNat 8 n

/-- R181: a two-byte field, low byte first. -/
def le16 (n : Nat) : List Byte := [byte n, byte (n / 256)]

/-- R182: 0 no, 1 yes. -/
def boolByte (b : Bool) : Byte := if b then 1 else 0

/-- An optional number in a response: 0 when absent (R182). -/
def optNat (o : Option Nat) : Nat := o.getD 0

/-- A count that stays at its greatest value (00_scope.md, Ranges). -/
def saturate (top n : Nat) : Nat := min n top

/-- All slots, ports and entries in increasing order. -/
def allSlots : List SlotId := List.finRange 24
def allPorts : List Port := List.finRange 4
def allEntries : List EntryId := List.finRange 16
def allProfiles : List ProfileId := List.finRange 4
def allClasses : List Class := List.finRange 4

/-! ### Schedule timers (R3) -/

/-- R3: an increase of MS lowers a running timer by one; a stopped or run-out timer stays as it is. -/
def Timer.lower (t : Timer) : Timer := t.map (· - 1)

/-- R3: the timer has run out and its expiry is due. -/
def Timer.due (t : Timer) : Bool := t == some 0

/-- R43: the milliseconds a running timer holds, as a snapshot shows them: 1 or more while it runs, 0 when it is
stopped. DEDUCED (log 9): a timer whose expiry has not been taken shows 1. -/
def Timer.left (t : Timer) : Nat :=
  match t with
  | none => 0
  | some n => max n 1

/-! ### Records of the state -/

/-- The record of a job that is not FREE. -/
def State.job (s : State) (i : SlotId) : Option Job := s.jobs[i].job

/-- The ticket of a slot. -/
def State.ticket (s : State) (i : SlotId) : Byte := s.jobs[i].ticket

/-- The job of slot i changed; a FREE slot stays FREE. -/
def State.modifyJob (s : State) (i : SlotId) (f : Job → Job) : State :=
  { s with jobs := s.jobs.set i { s.jobs[i] with job := s.jobs[i].job.map f } }

/-- R20: slot i becomes FREE and keeps its ticket. The timers go with the record. -/
def State.freeSlot (s : State) (i : SlotId) : State :=
  { s with jobs := s.jobs.set i { s.jobs[i] with job := none } }

/-- R21: slot i is allocated: its ticket increases by one, and the record is filled. -/
def State.fillSlot (s : State) (i : SlotId) (j : Job) : State :=
  { s with jobs := s.jobs.set i { ticket := s.jobs[i].ticket + 1, job := some j } }

/-- A profile's record, when it is defined. -/
def State.profile (s : State) (q : ProfileId) : Option Profile := s.profiles[q]

/-- The profile that the job of slot i names. -/
def State.jobProfile (s : State) (i : SlotId) : Option Profile := (s.job i).bind fun j => s.profile j.profile

/-- The class of the job of slot i. A FREE slot stands in no place (R46), and its class is never asked for. -/
def State.jobClass (s : State) (i : SlotId) : Class := ((s.job i).map (·.cls)).getD 0

/-- A host port's record. -/
def State.port (s : State) (p : Port) : HostPort := s.ports[p]

/-- A host port's record changed. -/
def State.modifyPort (s : State) (p : Port) (f : HostPort → HostPort) : State :=
  { s with ports := s.ports.set p (f s.ports[p]) }

/-- A port's ring descriptor. -/
def State.ring (s : State) (p : Port) : Option Ring := s.rings[p]

/-- A port's ring descriptor replaced. -/
def State.setRing (s : State) (p : Port) (r : Option Ring) : State := { s with rings := s.rings.set p r }

/-- A subscription entry. -/
def State.entry (s : State) (e : EntryId) : Option Entry := s.entries[e]

/-- A subscription entry replaced. -/
def State.setEntry (s : State) (e : EntryId) (x : Option Entry) : State := { s with entries := s.entries.set e x }

/-- R2: the timestamp of an event, MS modulo 65536. -/
def State.timestamp (s : State) : BitVec 16 := s.ms.truncate 16

/-! ### References and the listening set -/

/-- Whether the job of slot i satisfies a test; a FREE slot does not. -/
def State.jobSatisfies (s : State) (test : Job → Bool) (i : SlotId) : Bool := (s.job i).any test

/-- The number of jobs that are not FREE and satisfy a test. -/
def State.countJobs (s : State) (test : Job → Bool) : Nat := allSlots.countP (s.jobSatisfies test)

/-- Whether an entry is in use and satisfies a test. -/
def State.entrySatisfies (s : State) (test : Entry → Bool) (e : EntryId) : Bool := (s.entry e).any test

/-- R17 jobs_using: the jobs that are not FREE and name the profile, orphans included (R16). -/
def State.jobsUsing (s : State) (q : ProfileId) : Nat := s.countJobs (·.profile == q)

/-- R17 subs_using: the enabled entries that name the profile. -/
def State.subsUsing (s : State) (q : ProfileId) : Nat :=
  allEntries.countP (s.entrySatisfies fun e => e.enabled && e.profile == q)

/-- R16: a profile is in use. -/
def State.inUse (s : State) (q : ProfileId) : Bool := 0 < s.jobsUsing q + s.subsUsing q

/-- R18: a profile is in the listening set. -/
def State.listening (s : State) (q : ProfileId) : Bool := (s.profile q).isSome && decide (0 < s.subsUsing q)

/-- R18: the listening set, in increasing profile number. -/
def State.listeningSet (s : State) : List ProfileId := allProfiles.filter s.listening

/-- R35: the jobs a port owns, orphans included, plus the notices it holds. -/
def State.noticeSum (s : State) (p : Port) : Nat := s.countJobs (·.owner == p) + (s.port p).notices.length

/-! ### MS arithmetic -/

/-- R121: a difference of MS values, correct across a wrap, reported as 0..65535 saturating. -/
def msBetween (start finish : BitVec 32) : Nat := saturate 65535 (finish - start).toNat

end Sys2Proof.Machine
end

