-- ==== Sys2Proof/Machine/Flags.lean ====
section
/-! DEFINITION. The part's lines and conditions: the attention lines, and the reports the receiver gives the arbiter. -/

namespace Sys2Proof.Machine

/-- R158, R177: the ring count the port's attention considers; an undefined ring counts as 0. -/
def State.ringCount (s : State) (p : Port) : Nat := ((s.ring p).map (·.count)).getD 0

/-- R177: the attention condition of a port. -/
def State.attentionDue (s : State) (p : Port) : Bool :=
  (s.port p).isOpen && (!(s.port p).notices.isEmpty || decide ((s.port p).threshold ≤ s.ringCount p))

/-- R177: the port re-evaluates the condition, and ATTNn takes its level. -/
def State.attend (s : State) (p : Port) : State := s.modifyPort p fun h => { h with attn := s.attentionDue p }

/-- R107: the receiver reports the line quiet: the last sample was a space. -/
def Receiver.reportsQuiet (r : Receiver) : Bool := r.level == .space

/-- R52: the guard has reached its target. -/
def Arbiter.guardComplete (a : Arbiter) : Bool :=
  match a.guard with
  | some g => decide (g.target ≤ g.count)
  | none => false

/-- R73: the last tick of the last segment has been driven. -/
def Drive.finished (d : Drive) : Bool := decide (d.segments.length ≤ d.position)

/-- R77: the disagreement count exceeds half a cell. -/
def Drive.collides (d : Drive) (disagree : Nat) : Bool := decide (d.cellUs < 2 * disagree)

end Sys2Proof.Machine
end

