-- ==== Sys2Proof/Machine/LineCode.lean ====
section
/-! DEFINITION. Frames and markers on the line: body bits and checks (R6 to R9, R187, R188), the segment list of a
transmission (R70, R71), the carrier (R10), and the tolerance with which the receiver accepts a duration (R12). -/

namespace Sys2Proof.Machine

/-! ### Bits and checks -/

/-- R6, R187: the w bits of a field, least significant first. -/
def fieldBits (w n : Nat) : List Bool := (List.range w).map n.testBit

/-- The number whose bits these are, least significant first. -/
def bitsNumber : List Bool → Nat
  | [] => 0
  | b :: bs => b.toNat + 2 * bitsNumber bs

/-- R8: a profile sends its count field. -/
def Profile.counts (pr : Profile) : Bool := pr.lengthMode == .counted

/-- R6: a profile sends a check byte. -/
def Profile.checks (pr : Profile) : Bool := pr.check != .noCheck

/-- R6, R187: the body bits before the check byte: address, count under COUNTED, data. -/
def Profile.uncheckedBits (pr : Profile) (address : Byte) (data : List Byte) : List Bool :=
  fieldBits 8 address.toNat ++ (if pr.counts then fieldBits 4 data.length else [])
    ++ data.flatMap fun b => fieldBits 8 b.toNat

/-- R9, R188: one bit entering the CRC8 register. -/
def crc8Bit (register : Byte) (bit : Bool) : Byte :=
  if bit = register.msb then register <<< 1 else (register <<< 1) ^^^ 0x07

/-- R9, R188: the CRC8 of bits in transmission order. -/
def crc8 (bits : List Bool) : Byte := bits.foldl crc8Bit 0

/-- The sum of bytes modulo 256. -/
def byteSum (bs : List Byte) : Byte := bs.foldl (· + ·) 0

/-- R9, R188: the value that brings a sum to 0 modulo 256. -/
def checkByteOf (bs : List Byte) : Byte := 0 - byteSum bs

/-- R9: the check byte of a frame; under NONE the frame has none, and the value is not used. -/
def Profile.checkByte (pr : Profile) (address : Byte) (data : List Byte) : Byte :=
  match pr.check with
  | .noCheck => 0
  | .sum8 => checkByteOf (address :: (if pr.counts then [byte data.length] else []) ++ data)
  | .crc8 => crc8 (pr.uncheckedBits address data)

/-- R6, R187: the body bits of a frame. -/
def Profile.bodyBits (pr : Profile) (address : Byte) (data : List Byte) : List Bool :=
  pr.uncheckedBits address data ++ (if pr.checks then fieldBits 8 (pr.checkByte address data).toNat else [])

/-! ### Segments -/

/-- R1: the line ticks of whole cells. -/
def Profile.cells (pr : Profile) (n : Nat) : Nat := n * pr.cellUs

/-- R1: the first half of a split cell, the lower whole number of ticks. -/
def Profile.firstHalf (pr : Profile) : Nat := pr.cellUs / 2

/-- R1: the second half of a split cell, the remainder. -/
def Profile.secondHalf (pr : Profile) : Nat := pr.cellUs - pr.cellUs / 2

/-- R7: the marks and spaces of one body bit. -/
def Profile.bitSegments (pr : Profile) (bit : Bool) : List Segment :=
  match pr.coding with
  | .pdist => [⟨.mark, pr.cells 1⟩, ⟨.space, pr.cells (if bit then 3 else 1)⟩]
  | .pwidth => [⟨.mark, pr.cells (if bit then 2 else 1)⟩, ⟨.space, pr.cells 1⟩]
  | .split =>
    if bit then [⟨.mark, pr.firstHalf⟩, ⟨.space, pr.secondHalf⟩]
    else [⟨.space, pr.firstHalf⟩, ⟨.mark, pr.secondHalf⟩]

/-- R70: neighbouring pieces of one level form one segment of their joined length. -/
def joinSegments : List Segment → List Segment
  | [] => []
  | x :: xs =>
    match joinSegments xs with
    | [] => [x]
    | y :: ys => if x.level = y.level then ⟨x.level, x.ticks + y.ticks⟩ :: ys else x :: y :: ys

/-- R6 part 7: the stop mark. -/
def Profile.stopMark (pr : Profile) : List Segment :=
  if pr.coding = .pdist then [⟨.mark, pr.cells 1⟩] else []

/-- R70: the segment list of a FULL transmission. -/
def Profile.frameSegments (pr : Profile) (address : Byte) (data : List Byte) : List Segment :=
  joinSegments
    ([⟨.mark, pr.cells pr.leaderMark⟩, ⟨.space, pr.cells pr.leaderSpace⟩]
      ++ (pr.bodyBits address data).flatMap pr.bitSegments ++ pr.stopMark)

/-- R11, R71: the segment list of a MARKER transmission. -/
def Profile.markerSegments (pr : Profile) : List Segment :=
  [⟨.mark, pr.cells pr.leaderMark⟩, ⟨.space, pr.cells pr.repeatSpace⟩, ⟨.mark, pr.cells 1⟩]

/-- The segment list of a transmission of the given form. -/
def Profile.segments (pr : Profile) (form : Form) (address : Byte) (data : List Byte) : List Segment :=
  match form with
  | .full => pr.frameSegments address data
  | .marker => pr.markerSegments

/-! ### The carrier -/

/-- A quotient to the nearest whole number, a half rounded up. -/
def nearest (n d : Nat) : Nat := (2 * n + d) / (2 * d)

/-- R10: the carrier period in CLK periods; 0 for no carrier. -/
def Profile.carrierPeriod (pr : Profile) : Nat :=
  if pr.carrierKhz = 0 then 0 else nearest Config.clkPerMs pr.carrierKhz

/-- R10: the on part of a carrier period in CLK periods. -/
def Profile.carrierOn (pr : Profile) : Nat := nearest (pr.carrierPeriod * pr.duty) 100

/-- R10: DRIVE in CLK period c of a mark segment. -/
def Drive.markLevel (d : Drive) (c : Nat) : Bool :=
  if d.carrierPeriod = 0 then true else decide (c % d.carrierPeriod < d.carrierOn)

/-- R72: DRIVE in each CLK period of the line tick that the position names; a space is a steady low. -/
def Drive.pinLevels (d : Drive) : BitVec 8 :=
  match d.segments[d.position]? with
  | some ⟨.mark, _⟩ =>
    byte (bitsNumber ((List.range Config.clkPerTick).map fun k => d.markLevel (Config.clkPerTick * d.driven + k)))
  | _ => 0

/-! ### Lengths -/

/-- R13: the body bits of the longest frame the profile allows. -/
def Profile.longestBody (pr : Profile) : Nat :=
  8 + (if pr.counts then 4 + 48 else 8 * pr.fixedLen) + (if pr.checks then 8 else 0)

/-- R13: the worst cell count of a bit. -/
def Coding.worstCells : Coding → Nat
  | .pdist => 4
  | .pwidth => 3
  | .split => 1

/-- R13: the worst-case frame length in cells. -/
def Profile.longestFrame (pr : Profile) : Nat :=
  pr.leaderMark + pr.leaderSpace + pr.longestBody * pr.coding.worstCells + (if pr.coding = .pdist then 1 else 0)

/-- R13: the longest frame and the end gap fit within the repeat period. -/
def Profile.passesPeriodTest (pr : Profile) : Bool :=
  decide ((pr.longestFrame + pr.endGap) * pr.cellUs ≤ pr.repeatPeriodMs * 1000)

/-- R12: the end gap in line ticks. -/
def Profile.endGapUs (pr : Profile) : Nat := pr.cells pr.endGap

/-- R52: the target of the guard in line ticks. -/
def Profile.guardUs (pr : Profile) : Nat := pr.cells pr.guardCells

/-! ### Tolerance

A nominal is counted in half cells, so that the half cells of SPLIT stay exact: h half cells of cell_us are
h × cell_us ÷ 2, and the comparisons of 4d with 3n and 5n become comparisons of 8d. -/

/-- R12: a duration of d ticks is accepted for h half cells. -/
def Profile.acceptsHalves (pr : Profile) (h d : Nat) : Bool :=
  decide (3 * (h * pr.cellUs) ≤ 8 * d) && decide (8 * d ≤ 5 * (h * pr.cellUs))

/-- R12: a duration of d ticks is accepted for n cells. -/
def Profile.acceptsCells (pr : Profile) (n d : Nat) : Bool := pr.acceptsHalves (2 * n) d

/-- R108: a duration of d ticks passes 5/4 of a nominal given as half cells times cell_us. -/
def passesNominal (nominal d : Nat) : Bool := decide (5 * nominal < 8 * d)

/-- R111: the leader mark's nominal, in half cells times cell_us. -/
def Profile.leaderNominal (pr : Profile) : Nat := 2 * pr.leaderMark * pr.cellUs

/-- R112: the leader space is accepted for FRAME. -/
def Profile.acceptsFrameSpace (pr : Profile) (d : Nat) : Bool :=
  pr.acceptsCells pr.leaderSpace d || (pr.coding == .split && pr.acceptsHalves (2 * pr.leaderSpace + 1) d)

/-- R112: the leader space is accepted for MARKER. -/
def Profile.acceptsMarkerSpace (pr : Profile) (d : Nat) : Bool :=
  pr.acceptsCells pr.repeatSpace d && !pr.acceptsFrameSpace d

/-- R112: the shape for which a profile accepts a leader space. -/
def Profile.shapeOf (pr : Profile) (d : Nat) : Option Shape :=
  if pr.acceptsFrameSpace d then some .frame else if pr.acceptsMarkerSpace d then some .marker else none

/-- R112: the largest nominal of a candidate's leader spaces, in half cells times cell_us. -/
def Profile.spaceNominal (pr : Profile) : Nat :=
  max (2 * pr.leaderSpace + (if pr.coding = .split then 1 else 0)) (2 * pr.repeatSpace) * pr.cellUs

/-- R117: under SPLIT, whether the half stream begins with the space half of a first bit 0. Where the leader space is
accepted both for leader_space and for leader_space + ½ cell, the nearer nominal counts, an exact middle as
leader_space. -/
def Profile.startsWithHalf (pr : Profile) (d : Nat) : Bool :=
  pr.coding == .split && pr.acceptsHalves (2 * pr.leaderSpace + 1) d &&
    (!pr.acceptsCells pr.leaderSpace d || decide ((4 * pr.leaderSpace + 1) * pr.cellUs < 4 * d))

end Sys2Proof.Machine
end

