-- ==== Sys2Proof/Machine/Layout.lean ====
section
/-! DEFINITION. The bytes of responses, notices and ring records: the codes of R182 and the layouts of R181, R185 and
R186. -/

namespace Sys2Proof.Machine

/-! ### Codes (R182) -/

def Status.code : Status → Byte
  | .ok => 0x00 | .merged => 0x01 | .deferred => 0x02 | .tooLate => 0x03
  | .badCheck => 0x10 | .truncated => 0x11 | .badLength => 0x12 | .unknownRequest => 0x13
  | .noSession => 0x14 | .alreadyOpen => 0x15
  | .badValue => 0x20 | .noProfile => 0x21 | .badProfile => 0x22 | .inUse => 0x23 | .noRoom => 0x24
  | .tableFull => 0x25 | .noJob => 0x26 | .notOwner => 0x27 | .wrongKind => 0x28 | .badRange => 0x29
  | .overlap => 0x2A | .ringNotEmpty => 0x2B

def JobKind.code : JobKind → Byte
  | .oneshot => 0 | .burst => 1 | .held => 2

def JobKind.ofCode : Nat → Option JobKind
  | 0 => some .oneshot | 1 => some .burst | 2 => some .held | _ => none

def JobState.code : JobState → Byte
  | .queued => 0 | .starting => 1 | .sending => 2 | .gap => 3 | .suspended => 4 | .backoff => 5

def endPendingCode : Option EndPending → Byte
  | none => 0 | some .released => 1 | some .lapsed => 2

def JobOutcome.code : JobOutcome → Byte
  | .sent => 0 | .released => 1 | .lapsed => 2 | .expired => 3 | .cancelled => 4 | .gaveUp => 5

def Coding.code : Coding → Byte
  | .pdist => 0 | .pwidth => 1 | .split => 2

def Coding.ofCode : Nat → Option Coding
  | 0 => some .pdist | 1 => some .pwidth | 2 => some .split | _ => none

def LengthMode.code : LengthMode → Byte
  | .fixed => 0 | .counted => 1

def LengthMode.ofCode : Nat → Option LengthMode
  | 0 => some .fixed | 1 => some .counted | _ => none

def CheckKind.code : CheckKind → Byte
  | .noCheck => 0 | .sum8 => 1 | .crc8 => 2

def CheckKind.ofCode : Nat → Option CheckKind
  | 0 => some .noCheck | 1 => some .sum8 | 2 => some .crc8 | _ => none

def Form.code : Form → Byte
  | .full => 0 | .marker => 1

def Form.ofCode : Nat → Option Form
  | 0 => some .full | 1 => some .marker | _ => none

def Policy.code : Policy → Byte
  | .keepOld => 0 | .keepNew => 1

def Policy.ofCode : Nat → Option Policy
  | 0 => some .keepOld | 1 => some .keepNew | _ => none

def RecordKind.code : RecordKind → Nat
  | .new => 0 | .repeated => 1 | .release => 2 | .error => 3 | .sentLocal => 4

def ErrorKind.code : ErrorKind → Byte
  | .violation => 0 | .truncated => 1 | .length => 2 | .check => 3

def Origin.code : Origin → Byte
  | .queue => 0 | .stack => 1

/-- R182: yes/no, on/off and cut in a request; any other value is out of range. -/
def boolOfCode : Nat → Option Bool
  | 0 => some false | 1 => some true | _ => none

/-! ### Events and ring records -/

/-- R125, R74: an event handed to the delivery unit. -/
inductive Event where
  | new (f : Frame)
  | repeated (f : Frame) (repeats : Nat)
  | release (f : Frame) (repeats : Nat) (duration : Nat)
  | error (profile : ProfileId) (kind : ErrorKind)
  | sentLocal (f : Frame) (source : Port)
  deriving DecidableEq, Repr

def Event.kind : Event → RecordKind
  | .new _ => .new
  | .repeated _ _ => .repeated
  | .release _ _ _ => .release
  | .error _ _ => .error
  | .sentLocal _ _ => .sentLocal

/-- R139: the profile of an event's record. -/
def Event.profile : Event → ProfileId
  | .new f | .repeated f _ | .release f _ _ | .sentLocal f _ => f.profile
  | .error q _ => q

/-- R139: the address of an event's record; an ERROR has none. -/
def Event.address : Event → Option Byte
  | .new f | .repeated f _ | .release f _ _ | .sentLocal f _ => some f.address
  | .error _ _ => none

/-- R139: the data list of an event's record; an ERROR has none. -/
def Event.data : Event → List Byte
  | .new f | .repeated f _ | .release f _ _ | .sentLocal f _ => f.data
  | .error _ _ => []

/-- R186 byte 3: the address, or the error kind of an ERROR. -/
def Event.byte3 : Event → Byte
  | .error _ k => k.code
  | .new f | .repeated f _ | .release f _ _ | .sentLocal f _ => f.address

/-- R186 byte 10: repeats saturated at 255 for REPEAT and RELEASE, the source port for LOCAL, and 0 otherwise. -/
def Event.byte10 : Event → Byte
  | .repeated _ n | .release _ n _ => byte (saturate 255 n)
  | .sentLocal _ p => byte p.val
  | .new _ | .error _ _ => 0

/-- R186 bytes 14 and 15: the duration of a RELEASE. -/
def Event.duration : Event → Nat
  | .release _ _ d => d
  | .new _ | .repeated _ _ | .error _ _ | .sentLocal _ _ => 0

/-- Bytes filled with zeros to a length of n. -/
def padTo (n : Nat) (bs : List Byte) : List Byte := (bs ++ List.replicate n 0).take n

/-- R186: the 16 bytes of a ring record. -/
def Event.record (e : Event) (seq : BitVec 16) (missed : Nat) (time : BitVec 16) : List Byte :=
  [byte (e.kind.code + 8 * e.profile.val + 32 * e.data.length)] ++ le16 seq.toNat ++ [e.byte3] ++ padTo 6 e.data
    ++ [e.byte10, byte missed] ++ le16 time.toNat ++ le16 e.duration

/-- R185: the 10 bytes of a notice record. -/
def Notice.record (n : Notice) : List Byte :=
  [byte n.slot.val, n.ticket, n.submitTag, n.key, n.outcome.code, byte n.sent, byte n.collisionsTotal, byte n.merges]
    ++ le16 n.endTime.toNat

/-! ### The response envelope -/

/-- R181: the bytes of a response envelope. -/
def Response.bytes (r : Response) : List Byte :=
  let front := [byte r.body.length, r.code, r.tag, r.status.code] ++ r.body
  front ++ [checkByteOf front]

end Sys2Proof.Machine
end

