-- ==== Sys2Proof/Machine/Delivery.lean ====
section
/-! DEFINITION. Delivery and the receive rings: matching an event against the subscriptions (R134 to R141), and what
an offer does to a ring (R145, R150 to R152). -/

namespace Sys2Proof.Machine

/-! ### Rings -/

/-- R145: the frame-memory slot of position i of a ring. -/
def Ring.slotAt (r : Ring) (i : Nat) : Nat := r.base + (r.head + i) % r.depth

/-- The address of the missed byte of the record in a slot (R186). -/
def missedAddress (slot : Nat) : Nat := slotAddress slot + Config.missedOffset

/-- R150: a record is appended to a ring that is not full, with missed set from pending_missed. -/
def Ring.append (r : Ring) (e : Event) (seq time : BitVec 16) (m : List Host.Cell) : Ring × List Host.Cell :=
  ({ r with count := r.count + 1, pendingMissed := 0 },
   Memory.writeSlot (r.slotAt r.count) (e.record seq r.pendingMissed time) m)

/-- R145: the record at position 0 is removed. -/
def Ring.removeOldest (r : Ring) (m : List Host.Cell) : Ring × List Host.Cell :=
  ({ r with head := (r.head + 1) % r.depth, count := r.count - 1 }, Memory.clearSlot (r.slotAt 0) m)

/-- R152 step 3: the missed of the record at position 0 is increased by k, saturating. -/
def Ring.raiseMissed (r : Ring) (k : Nat) (m : List Host.Cell) : List Host.Cell :=
  let a := missedAddress (r.slotAt 0)
  Memory.write a (byte (saturate 255 ((Memory.read a m).toNat + k))) m

/-- R150 to R152: an offer to a defined ring. -/
def Ring.offer (r : Ring) (e : Event) (seq time : BitVec 16) (m : List Host.Cell) : Ring × List Host.Cell :=
  if r.count < r.depth then r.append e seq time m
  else
    match r.policy with
    | .keepOld => ({ r with pendingMissed := saturate 255 (r.pendingMissed + 1) }, m)
    | .keepNew =>
      let lost := (Memory.read (missedAddress (r.slotAt 0)) m).toNat
      let (r1, m1) := r.removeOldest m
      let (r2, m2) := r1.append e seq time m1
      (r2, r2.raiseMissed (1 + lost) m2)

/-- R143: the first n positions of a ring stop holding a record. -/
def Ring.clear (r : Ring) : Nat → List Host.Cell → List Host.Cell
  | 0, m => m
  | n + 1, m => Memory.clearSlot (r.slotAt n) (Ring.clear r n m)

/-- R141, R150: a record is offered to the ring of port p; an undefined ring drops it. -/
def State.offer (s : State) (p : Port) (e : Event) (seq : BitVec 16) : State :=
  match s.ring p with
  | none => s
  | some r =>
    let (r', m) := r.offer e seq s.timestamp s.mem
    (({ s with mem := m }).setRing p (some r')).attend p

/-- R143, R147, R148, R157: port p's ring, if it has one, is emptied of its records and becomes r. -/
def State.replaceRing (s : State) (p : Port) (r : Option Ring) : State :=
  let m := match s.ring p with
    | some old => old.clear old.count s.mem
    | none => s.mem
  (({ s with mem := m }).setRing p r).attend p

/-! ### Matching -/

/-- R135, R136, R137: an entry matches an event. The address test is not made for an ERROR, and the entries of a LOCAL
event's source port are not considered. -/
def Entry.selects (x : Entry) (e : Event) : Bool :=
  x.enabled && x.profile == e.profile
    && (match e.address with
        | some a => (a ^^^ x.value) &&& x.mask == 0
        | none => true)
    && (match e with
        | .sentLocal _ source => x.owner != source
        | _ => true)

/-- R182: a kinds set contains a kind. -/
def kindsContain (kinds : BitVec 5) (k : RecordKind) : Bool := kinds.getLsbD k.code

/-- R138: port p is offered a record of an event: some matching entry of the port wants the event's kind. -/
def State.wants (s : State) (p : Port) (e : Event) : Bool :=
  allEntries.any (s.entrySatisfies fun x => x.owner == p && x.selects e && kindsContain x.kinds e.kind)

/-- R138, R140, R141: port p is offered its record of an event, if it wants one; its delivery sequence counts the
offer. -/
def State.deliverTo (e : Event) (s : State) (p : Port) : State :=
  if s.wants p e then
    ({ s with seqs := s.seqs.set p (s.seqs[p] + 1) }).offer p e s.seqs[p]
  else s

/-- R134: the delivery unit takes an event. -/
def State.deliver (s : State) (e : Event) : State := allPorts.foldl (State.deliverTo e) s

end Sys2Proof.Machine
end

