-- ==== Sys2Proof/Machine/Operands.lean ====
section
/-! DEFINITION. Request bodies (R183): the fields of each body with the range checks that R5, R28, R128 and R146 make
on them. A body whose named field or number is out of range reads as `none`. -/

namespace Sys2Proof.Machine

/-- The byte at an offset of a body. -/
def bodyByte (body : List Byte) (i : Nat) : Byte := body.getD i 0

/-- The byte at an offset of a body as a number. -/
def bodyNat (body : List Byte) (i : Nat) : Nat := (bodyByte body i).toNat

/-- R181: the two-byte field at an offset of a body, low byte first. -/
def bodyNat16 (body : List Byte) (i : Nat) : Nat := bodyNat body i + 256 * bodyNat body (i + 1)

/-- A number as an index below n. -/
def finOf (n : Nat) (k : Nat) : Option (Fin n) := if h : k < n then some ⟨k, h⟩ else none

/-- R182: an optional field whose range excludes 0 is 0 when it is absent. -/
def absentZero (n : Nat) : Option Nat := if n = 0 then none else some n

/-- A number that must lie in a range, both ends included. -/
def inRange (low high n : Nat) : Option Nat := if low ≤ n ∧ n ≤ high then some n else none

/-! ### PROFILE_SET -/

/-- R10: the values of duty. -/
def dutyOf (n : Nat) : Option Nat := if n = 25 ∨ n = 33 ∨ n = 50 then some n else none

/-- R5: the values of carrier_khz. -/
def carrierOf (n : Nat) : Option Nat := if n = 0 ∨ (20 ≤ n ∧ n ≤ 80) then some n else none

/-- R183, R5: the profile fields of a PROFILE_SET body, all in range; check 2 of R14. -/
def profileOfBody (b : List Byte) : Option Profile := do
  let coding ← Coding.ofCode (bodyNat b 2)
  let cellUs ← inRange 100 4000 (bodyNat16 b 3)
  let carrierKhz ← carrierOf (bodyNat b 5)
  let duty ← dutyOf (bodyNat b 6)
  let leaderMark ← inRange 2 32 (bodyNat b 7)
  let leaderSpace ← inRange 1 32 (bodyNat b 8)
  let lengthMode ← LengthMode.ofCode (bodyNat b 9)
  let fixedLen ← inRange 0 6 (bodyNat b 10)
  let check ← CheckKind.ofCode (bodyNat b 11)
  let repeatForm ← Form.ofCode (bodyNat b 12)
  let repeatSpace ← inRange 1 32 (bodyNat b 13)
  let repeatPeriodMs ← inRange 20 500 (bodyNat16 b 14)
  let holdWindowMs ← inRange 20 1000 (bodyNat16 b 16)
  let endGap ← inRange 4 64 (bodyNat b 18)
  let guardCells ← inRange 4 64 (bodyNat b 19)
  let backoffBaseMs ← inRange 1 100 (bodyNat b 20)
  let attemptDefault ← inRange 1 15 (bodyNat b 21)
  some { coding, cellUs, carrierKhz, duty, leaderMark, leaderSpace, lengthMode, fixedLen, check, repeatForm,
         repeatSpace, repeatPeriodMs, holdWindowMs, endGap, guardCells, backoffBaseMs, attemptDefault }

/-- R184: the profile fields of a PROFILE_GET response, offsets 2 to 21; zeros for an undefined profile. -/
def profileFields : Option Profile → List Byte
  | none => List.replicate 20 0
  | some pr =>
    [pr.coding.code] ++ le16 pr.cellUs ++ [byte pr.carrierKhz, byte pr.duty, byte pr.leaderMark, byte pr.leaderSpace,
      pr.lengthMode.code, byte pr.fixedLen, pr.check.code, pr.repeatForm.code, byte pr.repeatSpace]
      ++ le16 pr.repeatPeriodMs ++ le16 pr.holdWindowMs
      ++ [byte pr.endGap, byte pr.guardCells, byte pr.backoffBaseMs, byte pr.attemptDefault]

/-! ### SUBMIT -/

/-- R26: what a SUBMIT carries. -/
structure Submission where
  key          : Byte
  cls          : Class
  kind         : JobKind
  burstCount   : Option Nat
  profile      : ProfileId
  address      : Byte
  data         : List Byte
  deadlineMs   : Option Nat
  lease        : Option Nat
  attemptLimit : Option Nat
  deriving DecidableEq, Repr

/-- R28: an optional field, absent or in its range. -/
def absentOr (low high : Nat) : Option Nat → Bool
  | none => true
  | some n => decide (low ≤ n ∧ n ≤ high)

/-- R28: burst_count is present and in range for BURST and absent otherwise; lease likewise for HELD; deadline_ms and
attempt_limit are absent or in range; the data list has at most 6 bytes. -/
def Submission.inRange (x : Submission) : Bool :=
  (if x.kind = .burst then x.burstCount.isSome && absentOr 2 255 x.burstCount else x.burstCount.isNone)
    && (if x.kind = .held then x.lease.isSome && absentOr 1 255 x.lease else x.lease.isNone)
    && absentOr 1 60000 x.deadlineMs && absentOr 1 15 x.attemptLimit && decide (x.data.length ≤ 6)

/-- R183: a SUBMIT body, with the tests of R28 that need no profile. -/
def submissionOfBody (b : List Byte) : Option Submission := do
  let cls ← finOf 4 (bodyNat b 1)
  let kind ← JobKind.ofCode (bodyNat b 2)
  let profile ← finOf 4 (bodyNat b 4)
  let x : Submission :=
    { key := bodyByte b 0, cls, kind, burstCount := absentZero (bodyNat b 3), profile, address := bodyByte b 5,
      data := b.drop 11, deadlineMs := absentZero (bodyNat16 b 6), lease := absentZero (bodyNat b 8),
      attemptLimit := absentZero (bodyNat b 9) }
  if bodyNat b 10 = x.data.length ∧ x.inRange = true then some x else none

/-! ### Handles, entries and rings -/

/-- R183: the slot of a handle, when it is 0..23. -/
def slotOfBody (b : List Byte) : Option SlotId := finOf 24 (bodyNat b 0)

/-- R182: a kinds set in a request: bits 0 to 4, at least one of them set, and no other. -/
def kindsOf (b : Byte) : Option (BitVec 5) :=
  if 0 < b.toNat ∧ b.toNat < 32 then some (b.truncate 5) else none

/-- R183, R128 check 1: a SUBSCRIBE body, as the entry it asks for. -/
def entryOfBody (p : Port) (b : List Byte) : Option Entry := do
  let profile ← finOf 4 (bodyNat b 0)
  let kinds ← kindsOf (bodyByte b 3)
  let enabled ← boolOfCode (bodyNat b 4)
  some { owner := p, profile, value := bodyByte b 1, mask := bodyByte b 2, kinds, enabled }

/-- R183: what a RING_SET carries. -/
structure RingRequest where
  base    : Nat
  depth   : Nat
  policy  : Policy
  discard : Bool
  deriving DecidableEq, Repr

/-- R183, R146 check 1: a RING_SET body. -/
def ringRequestOfBody (b : List Byte) : Option RingRequest := do
  let base ← inRange 0 127 (bodyNat b 0)
  let depth ← inRange 0 Config.maxDepth (bodyNat b 1)
  let policy ← Policy.ofCode (bodyNat b 2)
  let discard ← boolOfCode (bodyNat b 3)
  some { base, depth, policy, discard }

/-- R103, R154: the count n of a NOTICE_FETCH or a RING_READ, 1..4. -/
def readCountOfBody (b : List Byte) : Option Nat := inRange 1 Config.maxRead (bodyNat b 0)

end Sys2Proof.Machine
end

