-- ==== Sys2Proof/Machine/Arbiter.lean ====
section
/-! DEFINITION. The line arbiter (R45 to R66): places, selection, the guard, displacement, preemption, and its four
requests from the job table. -/

namespace Sys2Proof.Machine

/-! ### Places -/

/-- The slot in the line position. -/
def LinePosition.slot : LinePosition → Option SlotId
  | .empty => none
  | .candidate i _ => some i
  | .holder i => some i

/-- R63, R64: a slot taken out of whatever place it stands in, the others keeping their order. A job in the line
position leaves it empty, with the guard and the repeat-period timer stopped. -/
def Arbiter.without (a : Arbiter) (i : SlotId) : Arbiter :=
  let b := { a with
    queues := a.queues.map (·.filter (· ≠ i)), stack := a.stack.filter (· ≠ i), backoff := a.backoff.filter (· ≠ i) }
  if a.position.slot = some i then
    { b with position := .empty, guard := none, repeatTimer := none, periodDone := false }
  else b

/-- R47: join at the tail of a class queue. -/
def Arbiter.pushTail (a : Arbiter) (c : Class) (i : SlotId) : Arbiter :=
  { a with queues := a.queues.set c (a.queues[c] ++ [i]) }

/-- R47: join at the head of a class queue. -/
def Arbiter.pushHead (a : Arbiter) (c : Class) (i : SlotId) : Arbiter :=
  { a with queues := a.queues.set c (i :: a.queues[c]) }

/-- R48: push on top of the suspend stack. -/
def Arbiter.pushStack (a : Arbiter) (i : SlotId) : Arbiter := { a with stack := a.stack ++ [i] }

/-- R65: entry to the backoff set. -/
def Arbiter.pushBackoff (a : Arbiter) (i : SlotId) : Arbiter :=
  { a with backoff := allSlots.filter fun x => x == i || a.backoff.contains x }

/-- R50: the highest class whose queue is not empty. -/
def Arbiter.highestQueue (a : Arbiter) : Option Class := allClasses.reverse.find? fun c => !a.queues[c].isEmpty

/-- R56, R59: some queue of a class above c holds a job. -/
def Arbiter.queuedAbove (a : Arbiter) (c : Class) : Bool :=
  allClasses.any fun q => decide (c < q) && !a.queues[q].isEmpty

/-! ### The guard -/

/-- R52: the target of the guard for the job of slot i. A job's profile is defined (R16). -/
def State.guardTarget (s : State) (i : SlotId) : Nat := ((s.jobProfile i).map Profile.guardUs).getD 0

/-- R52: the guard of the job of slot i starts from zero. -/
def State.startGuard (s : State) (i : SlotId) : State :=
  { s with la := { s.la with guard := some { count := 0, target := s.guardTarget i } } }

/-- R52: the count advances with each tick of quiet line, to its target. -/
def GuardCount.advance (g : GuardCount) : GuardCount := { g with count := min (g.count + 1) (max g.count g.target) }

/-- R52: the line turns active, and the count returns to zero. -/
def GuardCount.restart (g : GuardCount) : GuardCount := { g with count := 0 }

/-! ### Selection (R50, R51) -/

/-- R50: the job that selection chooses, with its origin. -/
def State.choice (s : State) : Option (SlotId × Origin) :=
  match s.la.stack.getLast?, s.la.highestQueue with
  | some top, none => some (top, .stack)
  | some top, some q =>
    if q ≤ s.jobClass top then some (top, .stack) else s.la.queues[q].head?.map (·, .queue)
  | none, some q => s.la.queues[q].head?.map (·, .queue)
  | none, none => none

/-- R50: the chosen job leaves its place and becomes the candidate in STARTING, and its guard starts. -/
def State.makeCandidate (s : State) (i : SlotId) (o : Origin) : State :=
  let s1 := { s with la := { s.la.without i with
    position := .candidate i o, guard := none, repeatTimer := none, periodDone := false } }
  (s1.modifyJob i fun j => { j with state := .starting }).startGuard i

/-- R50, R51: selection, run when the line position is empty. -/
def State.select (s : State) : State :=
  match s.choice with
  | some (i, o) => s.makeCandidate i o
  | none => s

/-- R51: selection runs where an event has left the line position empty. -/
def State.selectIfEmpty (s : State) : State := if s.la.position = .empty then s.select else s

/-! ### Displacement and preemption -/

/-- R54: the candidate returns to its origin. -/
def State.displace (s : State) (i : SlotId) (o : Origin) : State :=
  let la := s.la.without i
  match o with
  | .queue => { s with la := la.pushHead (s.jobClass i) i }.modifyJob i fun j => { j with state := .queued }
  | .stack => { s with la := la.pushStack i }.modifyJob i fun j => { j with state := .suspended }

/-- R59: a holder in GAP is set aside with resume_full, and selection runs. -/
def State.preempt (s : State) (i : SlotId) : State :=
  (({ s with la := (s.la.without i).pushStack i }).modifyJob i fun j =>
    { j with state := .suspended, resumeFull := true }).select

/-- Whether the job of slot i is in a given state. -/
def State.jobIn (s : State) (i : SlotId) (st : JobState) : Bool := s.jobSatisfies (·.state == st) i

/-- R62: what a join of class c does to the line position. -/
def State.reactToJoin (s : State) (c : Class) : State :=
  match s.la.position with
  | .empty => s.select
  | .candidate i o => if s.jobClass i < c then (s.displace i o).select else s
  | .holder i => if s.jobIn i .gap && decide (s.jobClass i < c) then s.preempt i else s

/-- R38, R62: the job of slot i joins the tail of its class queue. -/
def State.joinTail (s : State) (i : SlotId) : State :=
  (({ s with la := s.la.pushTail (s.jobClass i) i }).modifyJob i fun j => { j with state := .queued }).reactToJoin
    (s.jobClass i)

/-- R38, R62: the job of slot i joins the head of its class queue. -/
def State.joinHead (s : State) (i : SlotId) : State :=
  (({ s with la := s.la.pushHead (s.jobClass i) i }).modifyJob i fun j => { j with state := .queued }).reactToJoin
    (s.jobClass i)

/-! ### Leaving and the gap -/

/-- R63, R64: the job of slot i leaves its place; no selection yet. -/
def State.vacate (s : State) (i : SlotId) : State := { s with la := s.la.without i }

/-- R56: the holder of slot i enters GAP: it is preempted if a higher class waits in a queue, and otherwise its guard
starts; the repeat-period timer runs on. -/
def State.enterGap (s : State) (i : SlotId) : State :=
  let s1 := s.modifyJob i fun j => { j with state := .gap }
  if s1.la.queuedAbove (s1.jobClass i) then s1.preempt i else s1.startGuard i

end Sys2Proof.Machine
end

