-- ==== Sys2Proof/Machine/Transmitter.lean ====
section
/-! DEFINITION. The transmitter: building a transmission at a frame start (R25, R53, R57, R69 to R72), driving it
(R72, R77), and stopping the drive (R73, R78, R83), with the decoder's entry to and exit from ECHO (R109, R110). -/

namespace Sys2Proof.Machine

/-- R69: the form of a job's next transmission, from the record before the frame start changes it. -/
def Job.nextForm (j : Job) (pr : Profile) : Form :=
  if j.kind ≠ .oneshot ∧ pr.repeatForm = .marker ∧ 1 ≤ j.sent ∧ j.resumeFull = false then .marker else .full

/-- R70, R71, R72: the transmission TX lays out for the job of slot i. -/
def Job.buildDrive (j : Job) (pr : Profile) (i : SlotId) : Drive :=
  { slot := i, form := j.nextForm pr, segments := pr.segments (j.nextForm pr) j.address j.data, position := 0,
    driven := 0, cellUs := pr.cellUs, carrierPeriod := pr.carrierPeriod, carrierOn := pr.carrierOn }

/-- R25: the record at a frame start. -/
def Job.atFrameStart (j : Job) : Job :=
  if j.started then { j with state := .sending, resumeFull := false }
  else { j with
    state := .sending, resumeFull := false, started := true, deadlineMs := none, deadlineTimer := none }

/-- R53, R57, R72, R109: a frame start of the job of slot i, which stands in the line position. A job's profile is
defined (R16). -/
def State.frameStart (s : State) (i : SlotId) : State :=
  match s.job i, s.jobProfile i with
  | some j, some pr =>
    let d := j.buildDrive pr i
    { s.modifyJob i Job.atFrameStart with
      la := { s.la with
        position := .holder i, guard := none, repeatTimer := some pr.repeatPeriodMs, periodDone := false }
      tx := { drive := some d, disagree := 0, pin := d.pinLevels }
      rx := { s.rx with decoder := .echo } }
  | _, _ => s

/-- R72: the position after one more driven tick. -/
def Drive.advance (d : Drive) : Drive :=
  match d.segments[d.position]? with
  | some g =>
    if d.driven + 1 < g.ticks then { d with driven := d.driven + 1 }
    else { d with position := d.position + 1, driven := 0 }
  | none => d

/-- R77: the level the segment list intends at the tick being driven. -/
def Drive.intended (d : Drive) : Option Level := (d.segments[d.position]?).map (·.level)

/-- R72, R77: TX drives one line tick, during which DETECT shows the given level. -/
def Transmitter.tick (t : Transmitter) (detect : Level) : Transmitter :=
  match t.drive with
  | none => t
  | some d =>
    match d.intended with
    | none => t
    | some level =>
      let d' := d.advance
      { drive := some d', disagree := if level = detect then 0 else t.disagree + 1,
        pin := if d'.finished then t.pin else d'.pinLevels }

/-- R73, R78, R83: the drive is over: DRIVE is space, the check is off, and the sequencer is IDLE. -/
def Transmitter.stopped : Transmitter := { drive := none, disagree := 0, pin := 0 }

/-- R110: the decoder leaves ECHO, for IDLE on a space and for TAIL with the noise gap on a mark. -/
def Receiver.leaveEcho (r : Receiver) : Receiver :=
  { r with decoder := if r.level = .mark then .tail none else .idle }

/-- R73, R78, R83: TX stops, and tells the receiver that its drive has ended. -/
def State.stopDrive (s : State) : State := { s with tx := .stopped, rx := s.rx.leaveEcho }

end Sys2Proof.Machine
end

