-- ==== Sys2Proof/Machine/Jobs.lean ====
section
/-! DEFINITION. The job table: ends and notices (R87 to R89), frame end and collision (R74 to R80), handles (R42),
submission and merging (R27 to R37), and the jobs of a session close (R44, R66). -/

namespace Sys2Proof.Machine

/-! ### Ends -/

/-- R101: the notice of a job's end. -/
def Job.notice (j : Job) (slot : SlotId) (ticket : Byte) (o : JobOutcome) (time : BitVec 16) : Notice :=
  { slot, ticket, submitTag := j.submitTag, key := j.key, outcome := o, sent := j.sent,
    collisionsTotal := j.collisionsTotal, merges := j.merges, endTime := time }

/-- R89: a notice is written when the job is not an orphan and its epoch is its owner's. -/
def State.mayNotify (s : State) (j : Job) : Bool := !j.orphan && j.epoch == (s.port j.owner).epoch

/-- R102: a notice is appended at the tail of a port's queue. -/
def State.pushNotice (s : State) (p : Port) (n : Notice) : State :=
  (s.modifyPort p fun h => { h with notices := h.notices ++ [n] }).attend p

/-- R88, R89: the notice of the end of slot i's job with outcome o, where one is called for. -/
def State.notify (s : State) (i : SlotId) (o : JobOutcome) : State :=
  match s.job i with
  | some j => if s.mayNotify j then s.pushNotice j.owner (j.notice i (s.ticket i) o s.timestamp) else s
  | none => s

/-- R88: the job of slot i leaves its place, its timers stop, and its slot becomes FREE. No selection yet. -/
def State.dropJob (s : State) (i : SlotId) : State := (s.vacate i).freeSlot i

/-- R88, R51: the job of slot i ends without a notice; selection runs if it stood in the line position. -/
def State.endSilently (s : State) (i : SlotId) : State :=
  if s.la.position.slot = some i then (s.dropJob i).select else s.dropJob i

/-- R88: the job of slot i ends with an outcome. -/
def State.endJob (s : State) (i : SlotId) (o : JobOutcome) : State := (s.notify i o).endSilently i

/-- R75, R79: the outcome that a pending end stands for. -/
def EndPending.outcome : EndPending → JobOutcome
  | .released => .released
  | .lapsed => .lapsed

/-! ### Frame end -/

/-- R74: the record once the completed transmission is counted. -/
def Job.countSent (j : Job) : Job :=
  { j with sent := if j.kind = .held then saturate 255 (j.sent + 1) else j.sent + 1, attempts := 0 }

/-- R75: the transmission just completed was the job's last anyway. -/
def Job.finished (j : Job) : Bool := j.kind == .oneshot || (j.kind == .burst && j.burstCount == some j.sent)

/-- R75: the outcome with which a counted job ends at its frame end; `none` when it enters GAP. -/
def Job.endAtFrame (j : Job) : Option JobOutcome :=
  if j.cancelPending then some (if j.finished then .sent else .cancelled)
  else
    match j.endPending with
    | some e => some e.outcome
    | none => if j.finished then some .sent else none

/-- R74: the LOCAL event of a completed full frame. -/
def Job.localEvent (j : Job) : Event :=
  .sentLocal { profile := j.profile, address := j.address, data := j.data } j.owner

/-- R74 to R76: DONE at the job table for the transmission of slot i. -/
def State.frameEnd (s : State) (i : SlotId) (form : Form) : State :=
  match s.job i with
  | none => s
  | some j =>
    let s1 := if form = .full then s.deliver j.localEvent else s
    if j.orphan then s1.endSilently i
    else
      let s2 := s1.modifyJob i Job.countSent
      match j.countSent.endAtFrame with
      | some o => s2.endJob i o
      | none => s2.enterGap i

/-! ### Collision -/

/-- R79: the record once the collision is counted. -/
def Job.countCollision (j : Job) : Job :=
  { j with attempts := j.attempts + 1, collisionsTotal := saturate 255 (j.collisionsTotal + 1) }

/-- R79: the outcome with which a counted job ends at a collision; `none` when it enters BACKOFF. -/
def Job.endAtCollision (j : Job) : Option JobOutcome :=
  if j.cancelPending then some .cancelled
  else
    match j.endPending with
    | some e => some e.outcome
    | none => if j.attempts = j.attemptLimit then some .gaveUp else none

/-- R80: the backoff duration in ms. -/
def backoffMs (base attempts : Nat) (stn : BitVec 4) : Nat := base * 2 ^ (min attempts 4 - 1) + 2 * stn.toNat

/-- R80: the backoff duration of the job of slot i. A job's profile is defined (R16). -/
def State.backoffOf (s : State) (i : SlotId) : Nat :=
  match s.job i, s.jobProfile i with
  | some j, some pr => backoffMs pr.backoffBaseMs j.attempts s.stn
  | _, _ => 0

/-- R64, R65, R79: the job of slot i leaves the line position for the backoff set, its backoff timer starts, and
selection runs. -/
def State.enterBackoff (s : State) (i : SlotId) : State :=
  let d := s.backoffOf i
  (({ s with la := (s.la.without i).pushBackoff i }).modifyJob i fun j =>
    { j with state := .backoff, backoffTimer := some d }).select

/-- R79: COLLIDED at the job table for the transmission of slot i. -/
def State.collided (s : State) (i : SlotId) : State :=
  match s.job i with
  | none => s
  | some j =>
    if j.orphan then s.endSilently i
    else
      let s1 := s.modifyJob i Job.countCollision
      match j.countCollision.endAtCollision with
      | some o => s1.endJob i o
      | none => s1.enterBackoff i

/-! ### Handles -/

/-- R42 check 1: the handle names a live job that is no orphan. -/
def State.handleJob (s : State) (b : List Byte) : Option (SlotId × Job) :=
  match slotOfBody b with
  | none => none
  | some i =>
    match s.job i with
    | none => none
    | some j => if s.ticket i = bodyByte b 1 ∧ j.orphan = false then some (i, j) else none

/-! ### Submission -/

/-- R28, last test: the data list fits a FIXED profile. -/
def Submission.fits (x : Submission) (pr : Profile) : Bool := pr.counts || x.data.length == pr.fixedLen

/-- R30: the job is unstarted, in QUEUED or STARTING with started no. -/
def Job.unstarted (j : Job) : Bool := (j.state == .queued || j.state == .starting) && !j.started

/-- R30: the merge target of a submission from port p. -/
def State.mergeTarget (s : State) (p : Port) (key : Byte) : Option SlotId :=
  if key = 0 then none
  else allSlots.find? (s.jobSatisfies fun j => j.owner == p && j.key == key && j.unstarted)

/-- R40: the lease timer of a job that starts or restarts with the given kind and lease. -/
def leaseTimerOf (kind : JobKind) (lease : Option Nat) : Timer :=
  if kind = .held then lease.map (· * 100) else none

/-- R31: the merge target's record after the merge, apart from its place. -/
def Job.merge (j : Job) (x : Submission) (pr : Profile) (tag : Byte) : Job :=
  { j with
    cls := x.cls, kind := x.kind, burstCount := x.burstCount, profile := x.profile, address := x.address,
    data := x.data, deadlineMs := x.deadlineMs, lease := x.lease,
    attemptLimit := x.attemptLimit.getD pr.attemptDefault, submitTag := tag, merges := saturate 255 (j.merges + 1),
    deadlineTimer := x.deadlineMs, leaseTimer := leaseTimerOf x.kind x.lease }

/-- R31 to R33: the merge into slot i. With the class unchanged a candidate's guard restarts; with the class changed
the job leaves its place and joins the tail of its new class's queue. -/
def State.mergeInto (s : State) (i : SlotId) (j : Job) (x : Submission) (pr : Profile) (tag : Byte) : State :=
  let s1 := s.modifyJob i fun j => j.merge x pr tag
  if j.cls = x.cls then (if j.state = .starting then s1.startGuard i else s1)
  else (s1.vacate i).joinTail i

/-- R22, R37: the record of a new job of port p. -/
def Submission.job (x : Submission) (p : Port) (epoch : Byte) (pr : Profile) (tag : Byte) : Job :=
  { owner := p, epoch, key := x.key, cls := x.cls, kind := x.kind, burstCount := x.burstCount, profile := x.profile,
    address := x.address, data := x.data, deadlineMs := x.deadlineMs, lease := x.lease,
    attemptLimit := x.attemptLimit.getD pr.attemptDefault, state := .queued, sent := 0, attempts := 0,
    collisionsTotal := 0, merges := 0, started := false, cancelPending := false, endPending := none,
    resumeFull := false, orphan := false, submitTag := tag, deadlineTimer := x.deadlineMs,
    leaseTimer := leaseTimerOf x.kind x.lease, backoffTimer := none }

/-- R36, R37: the lowest-numbered FREE slot. -/
def State.firstFree (s : State) : Option SlotId := allSlots.find? fun i => (s.job i).isNone

/-! ### Session close -/

/-- R44: the job is ended or orphaned by a close of port p. -/
def Job.closesWith (j : Job) (p : Port) : Bool := j.owner == p && !j.orphan

/-- R44: the job becomes an orphan, and its lease stops. -/
def Job.orphaned (j : Job) : Job := { j with orphan := true, leaseTimer := none }

/-- R44, R66, R83: the close of port p at slot i. The job in SENDING becomes an orphan with cut 0 and is cut with
cut 1; any other job leaves its place and its slot becomes FREE. No selection yet. -/
def State.closeJob (p : Port) (cut : Bool) (s : State) (i : SlotId) : State :=
  match s.job i with
  | none => s
  | some j =>
    if j.closesWith p then
      if j.state = .sending then (if cut then s.stopDrive.dropJob i else s.modifyJob i Job.orphaned)
      else s.dropJob i
    else s

/-- R44, R66: the jobs of port p at its close; selection runs once, after all the removals, if the line position is
empty. -/
def State.closeJobs (s : State) (p : Port) (cut : Bool) : State :=
  (allSlots.foldl (State.closeJob p cut) s).selectIfEmpty

/-- R174: a job of port p, not already an orphan, is SENDING. -/
def State.portSending (s : State) (p : Port) : Bool := 0 < s.countJobs fun j => j.closesWith p && j.state == .sending

end Sys2Proof.Machine
end

