-- ==== Sys2Proof/Machine/Ports.lean ====
section
/-! DEFINITION. The host ports: the wires (R159), the transaction (R161 to R163, R166, R167), the judgement of a request
envelope (R164, R165), and the composing of an answer (R165, R168). -/

namespace Sys2Proof.Machine

/-- What a request command of the part answers with: the next state, and never a fault or a refusal. -/
abbrev Answer := Host.Outcome State Fault Refusal

/-! ### The wires -/

/-- R162, R181: the bytes a transaction begun in IDLE clocks out before filler. -/
def HostPort.stateAndResponse (h : HostPort) : List Byte :=
  match h.response with
  | some r => Config.stateReady :: r.bytes
  | none => [Config.stateEmpty]

/-- R159: outgoing bit k, every byte most significant bit first; filler follows the bytes (R162). -/
def outgoingBit (bytes : List Byte) (k : Nat) : Bool := (bytes.getD (k / 8) Config.filler).getMsbD (k % 8)

/-- R159: a byte from its eight bits in the order they arrived, most significant first. -/
def byteOfBits (bits : List Bool) : Byte := byte (bits.foldl (fun n b => 2 * n + b.toNat) 0)

/-- A transaction is in progress: SELECTED, or a refused transaction (R161, R166). -/
def HostPort.inTransaction (h : HostPort) : Bool := h.txn == .selected || h.refused

/-- R159, R163: a bit from SDIn in a transaction; a refused transaction discards it (R166). -/
def HostPort.takeBit (h : HostPort) (bit : Bool) : HostPort :=
  if h.txn = .selected ∧ h.refused = false then
    let bits := h.bitsIn ++ [bit]
    if bits.length = 8 then { h with bitsIn := [], received := h.received ++ [byteOfBits bits] }
    else { h with bitsIn := bits }
  else h

/-- R159: the next outgoing bit on SDOn. -/
def HostPort.presentNext (h : HostPort) : HostPort :=
  if h.inTransaction then { h with outBit := h.outBit + 1, sdo := some (outgoingBit h.out (h.outBit + 1)) } else h

/-- R159: an edge of SCKn while nSELn is low or high. An edge to the level SCKn already has is no edge. -/
def HostPort.clockEdge (h : HostPort) : Edge → HostPort
  | .rising sdi => if h.clockHigh then h else HostPort.takeBit { h with clockHigh := true } sdi
  | .falling => if h.clockHigh then HostPort.presentNext { h with clockHigh := false } else h

/-- A transaction begins and its first outgoing bit is on SDOn. -/
def HostPort.begin (h : HostPort) (out : List Byte) : HostPort :=
  { h with selectLow := true, bitsIn := [], received := [], out, outBit := 0, sdo := some (outgoingBit out 0) }

/-- R161, R162, R166: nSELn goes low. In EXECUTING a refused transaction begins. -/
def HostPort.select (h : HostPort) : HostPort :=
  match h.txn with
  | .executing => { h.begin [Config.stateBusy] with refused := true }
  | .idle | .selected => { h.begin h.stateAndResponse with txn := .selected }

/-- R159, R166: nSELn goes high: SDOn is not driven, what was received is done with, and the refused-select mark
clears. -/
def HostPort.endTransaction (h : HostPort) : HostPort :=
  { h with selectLow := false, bitsIn := [], received := [], out := [], outBit := 0, sdo := none, refused := false }

/-! ### Judging a transaction -/

/-- What the port makes of the bytes it received. -/
inductive Verdict where
  | readOnly
  | refuse (code tag : Byte) (status : Status)
  | hand (r : Request)
  deriving DecidableEq, Repr

/-- R163 to R165: the received bytes judged at the deselect, for a session that is open or not. A code or tag that was
not received is 0. -/
def judgeEnvelope (isOpen : Bool) (bytes : List Byte) : Verdict :=
  match bytes with
  | [] => .readOnly
  | first :: _ =>
    let len := first.toNat
    let code := bytes.getD 1 0
    let tag := bytes.getD 2 0
    if first = Config.readOnlyMark then .readOnly
    else if 31 ≤ len then .refuse code tag .badLength
    else if bytes.length < len + 4 then .refuse code tag .truncated
    else if byteSum (bytes.take (len + 4)) ≠ 0 then .refuse code tag .badCheck
    else
      match RequestKind.ofCode code with
      | none => .refuse code tag .unknownRequest
      | some k =>
        if k.allowsLength len = false then .refuse code tag .badLength
        else if isOpen = false ∧ k.needsSession = true then .refuse code tag .noSession
        else .hand { kind := k, tag, body := (bytes.drop 3).take len }

/-- R161, R164, R165, R167: the port at the deselect of a transaction that is not a refused one. -/
def HostPort.settle (h : HostPort) : HostPort :=
  match judgeEnvelope h.isOpen h.received with
  | .readOnly => { h.endTransaction with txn := .idle }
  | .refuse code tag status => { h.endTransaction with txn := .idle, response := some { code, tag, status, body := [] } }
  | .hand r => { h.endTransaction with txn := .executing, request := some r }

/-- R161, R163, R166: nSELn goes high. A refused transaction is not judged; a select that was already low at the end
of a full reset began no transaction, and nothing is judged there either (R159). -/
def HostPort.deselect (h : HostPort) : HostPort :=
  if h.refused then h.endTransaction
  else
    match h.txn with
    | .selected => h.settle
    | .idle | .executing => h.endTransaction

/-! ### Answers -/

/-- R165, R168: the answer of the block that took port p's request: the response replaces the buffer, the pending
request becomes absent, and the port enters IDLE. -/
def HostPort.answer (h : HostPort) (r : Request) (status : Status) (body : List Byte) : HostPort :=
  { h with
    txn := .idle, request := none, response := some { code := r.kind.code, tag := r.tag, status, body } }

/-- A block's reply to a request: its status, its result body, and the state its effect leaves. -/
structure Reply where
  status : Status
  body   : List Byte
  state  : State

/-- A reply of a status alone, with nothing changed. -/
def Reply.refuse (s : State) (status : Status) : Reply := { status, body := [], state := s }

/-- R165: the block that owns a request of kind k takes port p's pending request and answers it. Where port p has no
request of that kind pending, there is nothing to take, and nothing changes (log 5). -/
def State.takeRequest (s : State) (k : RequestKind) (p : Port) (handler : Request → State → Reply) : Answer :=
  match (s.port p).request with
  | some r =>
    if r.kind = k then
      let reply := handler r s
      .next (reply.state.modifyPort p fun h => h.answer r reply.status reply.body)
    else .next s
  | none => .next s

end Sys2Proof.Machine
end

