-- ==== Sys2Proof/Machine/JobRequests.lean ====
section
/-! DEFINITION. The requests of the job table: SUBMIT, KEEP, RELEASE, CANCEL and JOB_QUERY. -/

namespace Sys2Proof.Machine

/-! ### SUBMIT -/

/-- R183: the handle in the response to a SUBMIT. -/
def handleBody (slot : SlotId) (ticket : Byte) : List Byte := [byte slot.val, ticket]

/-- R27 checks 4 to 6, R37: a submission that fits its defined profile merges, or is refused, or is accepted. -/
def State.decideSubmit (s : State) (p : Port) (x : Submission) (pr : Profile) (tag : Byte) : Reply :=
  match (s.mergeTarget p x.key).bind fun i => (s.job i).map (i, ·) with
  | some (i, j) => { status := .merged, body := handleBody i (s.ticket i), state := s.mergeInto i j x pr tag }
  | none =>
    if Config.noticeRoom ≤ s.noticeSum p then Reply.refuse s .noRoom
    else
      match s.firstFree with
      | none => Reply.refuse s .tableFull
      | some i =>
        { status := .ok, body := handleBody i (s.ticket i + 1),
          state := (s.fillSlot i (x.job p (s.port p).epoch pr tag)).joinTail i }

/-- R27: the checks of a SUBMIT in their order. -/
def submitReply (p : Port) (r : Request) (s : State) : Reply :=
  match submissionOfBody r.body with
  | none => Reply.refuse s .badValue
  | some x =>
    match s.profile x.profile with
    | none => Reply.refuse s .noProfile
    | some pr => if x.fits pr then s.decideSubmit p x pr r.tag else Reply.refuse s .badValue

/-- SUBMIT, R27. -/
def execSubmit (p : Port) (s : State) : Host.Outcome State Fault Refusal := s.takeRequest .submit p (submitReply p)

/-! ### Requests with a handle -/

/-- R42: a request that names a job of the caller; NO_JOB and NOT_OWNER otherwise. -/
def State.withHandle (s : State) (p : Port) (body : List Byte) (f : SlotId → Job → Reply) : Reply :=
  match s.handleJob body with
  | none => Reply.refuse s .noJob
  | some (i, j) => if j.owner = p then f i j else Reply.refuse s .notOwner

/-- R90: KEEP restarts the lease timer with the record's lease. -/
def Job.keep (j : Job) : Job := { j with leaseTimer := leaseTimerOf j.kind j.lease }

/-- R90. -/
def keepReply (p : Port) (r : Request) (s : State) : Reply :=
  s.withHandle p r.body fun i j =>
    if j.kind ≠ .held then Reply.refuse s .wrongKind
    else if j.endPending = some .lapsed then Reply.refuse s .tooLate
    else { status := .ok, body := [], state := s.modifyJob i Job.keep }

/-- KEEP, R90. -/
def execKeep (p : Port) (s : State) : Host.Outcome State Fault Refusal := s.takeRequest .keep p (keepReply p)

/-- R92: a RELEASE of an unstarted HELD job turns it into a ONESHOT. -/
def Job.toOneshot (j : Job) : Job := { j with kind := .oneshot, lease := none, leaseTimer := none }

/-- R91: a RELEASE in SENDING sets end_pending, unless a pending end is set already. -/
def Job.deferRelease (j : Job) : Job :=
  if j.cancelPending = false ∧ j.endPending = none then { j with endPending := some .released } else j

/-- R91, R92. -/
def releaseReply (p : Port) (r : Request) (s : State) : Reply :=
  s.withHandle p r.body fun i j =>
    if j.kind ≠ .held then Reply.refuse s .wrongKind
    else if j.state = .sending then { status := .deferred, body := [], state := s.modifyJob i Job.deferRelease }
    else if j.unstarted then { status := .ok, body := [], state := s.modifyJob i Job.toOneshot }
    else { status := .ok, body := [], state := s.endJob i .released }

/-- RELEASE, R91. -/
def execRelease (p : Port) (s : State) : Host.Outcome State Fault Refusal := s.takeRequest .release p (releaseReply p)

/-- R93: a CANCEL in SENDING sets cancel_pending. -/
def Job.deferCancel (j : Job) : Job := { j with cancelPending := true }

/-- R93. -/
def cancelReply (p : Port) (r : Request) (s : State) : Reply :=
  s.withHandle p r.body fun i j =>
    if j.state = .sending then { status := .deferred, body := [], state := s.modifyJob i Job.deferCancel }
    else { status := .ok, body := [], state := s.endJob i .cancelled }

/-- CANCEL, R93. -/
def execCancel (p : Port) (s : State) : Host.Outcome State Fault Refusal := s.takeRequest .cancel p (cancelReply p)

/-! ### JOB_QUERY -/

/-- R43: the place of the job of slot i: in its class queue from the head, or in the stack from the top. -/
def State.placeOf (s : State) (i : SlotId) (j : Job) : Nat :=
  match j.state with
  | .queued => s.la.queues[j.cls].idxOf i
  | .suspended => s.la.stack.reverse.idxOf i
  | .starting | .sending | .gap | .backoff => 0

/-- R184: the flags byte of JOB_QUERY. -/
def Job.flagsByte (j : Job) : Byte :=
  byte (j.started.toNat + 2 * j.cancelPending.toNat + 4 * j.resumeFull.toNat)

/-- R43, R184: the snapshot of the job of slot i. -/
def State.jobBody (s : State) (i : SlotId) (j : Job) : List Byte :=
  [byte i.val, s.ticket i, j.key, byte j.cls.val, j.kind.code, byte (optNat j.burstCount), byte j.profile.val, j.address,
    byte j.data.length] ++ padTo 6 j.data
    ++ [j.state.code, byte (s.placeOf i j), byte j.sent, byte j.attempts, byte j.attemptLimit, byte j.collisionsTotal,
      byte j.merges, j.flagsByte, endPendingCode j.endPending]
    ++ le16 j.deadlineTimer.left ++ [byte (optNat j.lease)] ++ le16 j.leaseTimer.left ++ le16 j.backoffTimer.left
    ++ [j.submitTag]

/-- R43. -/
def jobQueryReply (p : Port) (r : Request) (s : State) : Reply :=
  s.withHandle p r.body fun i j => { status := .ok, body := s.jobBody i j, state := s }

/-- JOB_QUERY, R43. -/
def execJobQuery (p : Port) (s : State) : Host.Outcome State Fault Refusal := s.takeRequest .jobQuery p (jobQueryReply p)

end Sys2Proof.Machine
end

