-- ==== Sys2Proof/Machine/Reception.lean ====
section
/-! DEFINITION. The receiver: recognising a leader (R111 to R113), decoding the body (R114 to R117), closing a frame
(R118, R119), markers (R120), the repeat tracker (R121 to R124), and what a change of the listening set does to a
decode (R18). -/

namespace Sys2Proof.Machine

/-! ### Gaps and bounds -/

/-- R108: the noise gap, taken from the listening set as it stands. -/
def State.noiseGap (s : State) : Nat :=
  match s.listeningSet with
  | [] => Config.emptyNoiseGap
  | qs => (qs.map fun q => ((s.profile q).map Profile.endGapUs).getD 0).foldl max 0

/-- R111: the longest leader mark of the listening set, in half cells times cell_us. -/
def State.longestLeader (s : State) : Nat :=
  (s.listeningSet.map fun q => ((s.profile q).map Profile.leaderNominal).getD 0).foldl max 0

/-- R111: the listening profiles whose leader_mark accepts a mark of d ticks. -/
def State.leaderCandidates (s : State) (d : Nat) : List ProfileId :=
  s.listeningSet.filter fun q => (s.profile q).any fun pr => pr.acceptsCells pr.leaderMark d

/-- R112: the largest leader-space nominal among candidates. -/
def State.longestSpace (s : State) (qs : List ProfileId) : Nat :=
  (qs.map fun q => ((s.profile q).map Profile.spaceNominal).getD 0).foldl max 0

/-- R113: the closing gap that TAIL waits out, in µs of quiet. -/
def State.closingGap (s : State) (own : Option (ProfileId × Nat)) : Nat :=
  match own with
  | some (_, us) => us
  | none => s.noiseGap

/-- The decoder in another state. -/
def State.setDecoder (s : State) (d : Decoder) : State := { s with rx := { s.rx with decoder := d } }

/-- R113: activity found to be noise. -/
def State.noise (s : State) : State := s.setDecoder (.tail none)

/-! ### Decoding -/

/-- What a judged mark or space makes of a decode. -/
inductive Judgement where
  | going (d : Decoding)
  | failed (k : ErrorKind)
  deriving DecidableEq, Repr

/-- R114: N for a frame whose data list has n bytes. -/
def Profile.bodyLength (pr : Profile) (n : Nat) : Nat :=
  (if pr.counts then 12 else 8) + 8 * n + (if pr.checks then 8 else 0)

/-- R114: N as the decoder knows it when it enters BITS: under COUNTED it must read the count first. -/
def Profile.expectedAtStart (pr : Profile) : Option Nat :=
  if pr.counts then none else some (pr.bodyLength pr.fixedLen)

/-- R112, R117: the decoder's BITS when profile q wins a leader space of d ticks. -/
def Profile.startDecoding (pr : Profile) (q : ProfileId) (shape : Shape) (d : Nat) : Decoding :=
  { winner := q, shape := shape, bits := [], expected := pr.expectedAtStart,
    halves := if pr.startsWithHalf d then [.space] else [] }

/-- R114: the frame's bits are complete. -/
def Decoding.complete (d : Decoding) : Bool := d.expected == some d.bits.length

/-- R114: a bit is decoded; the twelfth bit of a COUNTED frame gives the count, and with it N or a LENGTH error. -/
def Decoding.pushBit (d : Decoding) (pr : Profile) (bit : Bool) : Judgement :=
  let bits := d.bits ++ [bit]
  if pr.counts && bits.length == 12 then
    let c := bitsNumber (bits.drop 8)
    if 7 ≤ c then .failed .length else .going { d with bits := bits, expected := some (pr.bodyLength c) }
  else .going { d with bits := bits }

/-- R117: a half cell joins the half stream; a complete pair gives a bit or a VIOLATION. -/
def Decoding.pushHalf (d : Decoding) (pr : Profile) (half : Level) : Judgement :=
  let d' := { d with halves := d.halves ++ [half] }
  if d.expected.any fun n => decide (2 * n < d'.halves.length) then .failed .violation
  else if d'.halves.length % 2 = 1 then .going d'
  else
    match d.halves.getLast? with
    | some first => if first = half then .failed .violation else d'.pushBit pr (first == .mark)
    | none => .going d'

/-- R117: a mark or space of one or two half cells at its level. -/
def Decoding.pushPiece (d : Decoding) (pr : Profile) (level : Level) (ticks : Nat) : Judgement :=
  if pr.acceptsHalves 1 ticks then d.pushHalf pr level
  else if pr.acceptsCells 1 ticks then
    match d.pushHalf pr level with
    | .going d' => d'.pushHalf pr level
    | .failed k => .failed k
  else .failed .violation

/-- R115 to R118: the frame can close at the end gap that the space in progress may reach. Under SPLIT a last bit 1
may have its second half in that space. -/
def Decoding.closable (d : Decoding) (pr : Profile) : Bool :=
  match pr.coding with
  | .pdist | .pwidth => d.complete
  | .split =>
    d.expected.any fun n => d.halves.length == 2 * n || (d.halves.length + 1 == 2 * n && d.halves.getLast? == some .mark)

/-- R115 to R117, R120: a mark of the given length has ended. -/
def Decoding.judgeMark (d : Decoding) (pr : Profile) (ticks : Nat) : Judgement :=
  match d.shape, pr.coding with
  | .marker, _ | .frame, .pdist => if pr.acceptsCells 1 ticks then .going d else .failed .violation
  | .frame, .pwidth =>
    if pr.acceptsCells 1 ticks then d.pushBit pr false
    else if pr.acceptsCells 2 ticks then d.pushBit pr true
    else .failed .violation
  | .frame, .split => d.pushPiece pr .mark ticks

/-- R115 to R117, R120: a space of the given length is ended by a mark. -/
def Decoding.judgeSpace (d : Decoding) (pr : Profile) (ticks : Nat) : Judgement :=
  match d.shape with
  | .marker => .failed .violation
  | .frame =>
    if d.closable pr then .failed .violation
    else
      match pr.coding with
      | .pdist =>
        if pr.acceptsCells 1 ticks then d.pushBit pr false
        else if pr.acceptsCells 3 ticks then d.pushBit pr true
        else .failed .violation
      | .pwidth => if pr.acceptsCells 1 ticks then .going d else .failed .violation
      | .split => d.pushPiece pr .space ticks

/-- R115 to R117, R120: the longest nominal of a mark in BITS, in half cells times cell_us. -/
def Decoding.markNominal (d : Decoding) (pr : Profile) : Nat :=
  match d.shape, pr.coding with
  | .frame, .pwidth => 4 * pr.cellUs
  | .frame, .pdist | .frame, .split | .marker, _ => 2 * pr.cellUs

/-- R117, R118: the body bits at the close; under SPLIT the last bit 1 is completed by the end gap. -/
def Decoding.closedBits (d : Decoding) : List Bool := if d.complete then d.bits else d.bits ++ [true]

/-- R114, R187: the bytes of bits from position a on, n of them. -/
def bytesAt (bits : List Bool) (a : Nat) : Nat → List Byte
  | 0 => []
  | n + 1 => byte (bitsNumber ((bits.drop a).take 8)) :: bytesAt bits (a + 8) n

/-- R114, R187: the address, data list and check byte that complete body bits hold. -/
def Profile.fieldsOf (pr : Profile) (bits : List Bool) : Byte × List Byte × Byte :=
  let a := if pr.counts then 12 else 8
  let n := (bits.length - a - (if pr.checks then 8 else 0)) / 8
  (byte (bitsNumber (bits.take 8)), bytesAt bits a n, byte (bitsNumber (bits.drop (a + 8 * n))))

/-! ### The repeat tracker -/

/-- R121: the hold window of a profile, as the timer is loaded. -/
def State.holdWindow (s : State) (q : ProfileId) : Timer := some (((s.profile q).map (·.holdWindowMs)).getD 0)

/-- R122, R123: a repeat of the held frame. -/
def State.repeatHold (s : State) (h : Hold) : State :=
  let h' := { h with repeats := saturate 65535 (h.repeats + 1), lastTime := s.ms }
  State.deliver { s with rx := { s.rx with tracker := some h', holdTimer := s.holdWindow h.frame.profile } }
    (.repeated h'.frame h'.repeats)

/-- R122: a hold of a new frame begins. -/
def State.beginHold (s : State) (f : Frame) : State :=
  let h : Hold := { frame := f, repeats := 0, startTime := s.ms, lastTime := s.ms }
  State.deliver { s with rx := { s.rx with tracker := some h, holdTimer := s.holdWindow f.profile } } (.new f)

/-- R122, R124: the hold ends with a RELEASE event. -/
def State.endHold (s : State) (h : Hold) : State :=
  State.deliver { s with rx := { s.rx with tracker := none, holdTimer := none } }
    (.release h.frame h.repeats (msBetween h.startTime h.lastTime))

/-- R122: a good frame is handed to the tracker. -/
def State.trackFrame (s : State) (f : Frame) : State :=
  match s.rx.tracker with
  | some h => if h.frame = f then s.repeatHold h else (s.endHold h).beginHold f
  | none => s.beginHold f

/-- R123: a recognised marker is handed to the tracker; a stray marker is dropped. -/
def State.trackMarker (s : State) (q : ProfileId) : State :=
  match s.rx.tracker with
  | some h => if h.frame.profile = q then s.repeatHold h else s
  | none => s

/-! ### Ends of a decode -/

/-- R119: a VIOLATION or LENGTH error: an ERROR event, and TAIL with the winner's end gap. -/
def State.failDecode (s : State) (q : ProfileId) (pr : Profile) (k : ErrorKind) : State :=
  (s.setDecoder (.tail (some (q, pr.endGapUs)))).deliver (.error q k)

/-- R119: a TRUNCATED or CHECK error: an ERROR event, and IDLE, the end gap having been reached. -/
def State.failClose (s : State) (q : ProfileId) (k : ErrorKind) : State :=
  (s.setDecoder .idle).deliver (.error q k)

/-- A judged mark or space in BITS goes on or fails. -/
def State.applyJudgement (s : State) (q : ProfileId) (pr : Profile) : Judgement → State
  | .going d => s.setDecoder (.bits d)
  | .failed k => s.failDecode q pr k

/-- R118: the decode at its end gap: a frame that can close is checked and, when good, handed to the tracker; one
that cannot is TRUNCATED. R120: a marker is recognised. -/
def State.closeDecode (s : State) (d : Decoding) (pr : Profile) : State :=
  match d.shape with
  | .marker => (s.setDecoder .idle).trackMarker d.winner
  | .frame =>
    if d.closable pr then
      let (address, data, check) := pr.fieldsOf d.closedBits
      if pr.checks && check != pr.checkByte address data then s.failClose d.winner .check
      else (s.setDecoder .idle).trackFrame { profile := d.winner, address := address, data := data }
    else s.failClose d.winner .truncated

/-! ### The turns of DETECT -/

/-- R112: the leader space of d ticks is judged: of the candidates that have not left the listening set, the
lowest-numbered one that accepts it wins. -/
def State.judgeLeaderSpace (s : State) (candidates : List ProfileId) (d : Nat) : State :=
  match allProfiles.find? fun q => candidates.contains q && s.listening q
      && (s.profile q).any fun pr => (pr.shapeOf d).isSome with
  | none => s.noise
  | some q =>
    match s.profile q with
    | none => s.noise
    | some pr =>
      match pr.shapeOf d with
      | none => s.noise
      | some shape => s.setDecoder (.bits (pr.startDecoding q shape d))

/-- R111: the leader mark of d ticks is judged at its end. -/
def State.judgeLeaderMark (s : State) (d : Nat) : State :=
  match s.leaderCandidates d with
  | [] => s.noise
  | qs => s.setDecoder (.leaderSpace qs (s.longestSpace qs))

/-- R107, R108, R111, R112: what the decoder does when DETECT turns to mark after a space of the given length. -/
def State.judgeAtMark (s : State) (space : Nat) : State :=
  match s.rx.decoder with
  | .idle => if s.listeningSet.isEmpty then s.noise else s.setDecoder .leaderMark
  | .leaderSpace candidates _ => s.judgeLeaderSpace candidates space
  | .bits d =>
    match s.profile d.winner with
    | some pr => s.applyJudgement d.winner pr (d.judgeSpace pr space)
    | none => s
  | .leaderMark | .tail _ | .echo => s

/-- R107, R108, R111: what the decoder does when DETECT turns to space after a mark of the given length. -/
def State.judgeAtSpace (s : State) (mark : Nat) : State :=
  match s.rx.decoder with
  | .leaderMark => s.judgeLeaderMark mark
  | .bits d =>
    match s.profile d.winner with
    | some pr => s.applyJudgement d.winner pr (d.judgeMark pr mark)
    | none => s
  | .idle | .leaderSpace _ _ | .tail _ | .echo => s

/-! ### The listening set -/

/-- R18: the listening set is re-evaluated. A candidate that has left it can no longer win; a frame or an error tail
of a departed profile ends without an event and waits out the noise gap. -/
def State.reevaluateListening (s : State) : State :=
  match s.rx.decoder with
  | .leaderSpace candidates longest => s.setDecoder (.leaderSpace (candidates.filter s.listening) longest)
  | .bits d => if s.listening d.winner then s else s.noise
  | .tail (some (q, _)) => if s.listening q then s else s.noise
  | .idle | .leaderMark | .tail none | .echo => s

end Sys2Proof.Machine
end

