-- ==== Sys2Proof/Machine/LineCommands.lean ====
section
/-! DEFINITION. The meanings of the line's and the clock's commands: full reset, the ticks, the turns of DETECT, and the
receiver's and transmitter's events. An event that is not due does not happen: the state stays as it is (log 5). -/

namespace Sys2Proof.Machine

/-- R159, R180: a port after full reset. Its pins nSELn and SCKn are the host's and keep their levels. -/
def HostPort.fullReset (h : HostPort) : HostPort :=
  { HostPort.reset with selectLow := h.selectLow, clockHigh := h.clockHigh }

/-- FULL_RESET, R180, with R4, R20, R45, R68, R85, R106, R127, R143, R144, R160: every block takes its reset values,
with no notice and no event, and STN is sampled from the straps. The commands that wait are outside the part. -/
def execFullReset (straps : BitVec 4) (s : State) : Host.Outcome State Fault Refusal :=
  .next { State.reset with stn := straps, ports := s.ports.map HostPort.fullReset, pending := s.pending }

/-- R107, R108: the receiver's counts at a tick. -/
def Receiver.tick (r : Receiver) : Receiver :=
  match r.level with
  | .space => { r with quiet := saturate Config.quietMax (r.quiet + 1) }
  | .mark => { r with quiet := 0, markTicks := r.markTicks + 1 }

/-- R52: the guard at a tick: it advances on quiet line. -/
def Arbiter.tick (a : Arbiter) (level : Level) : Arbiter :=
  match level with
  | .space => { a with guard := a.guard.map GuardCount.advance }
  | .mark => a

/-- LINE_TICK, R1, R52, R72, R77, R107: one line tick. -/
def execLineTick (s : State) : Host.Outcome State Fault Refusal :=
  .next { s with
    tickCount := s.tickCount + 1, rx := s.rx.tick, la := s.la.tick s.rx.level, tx := s.tx.tick s.rx.level }

/-- R3: a job's timers at an increase of MS. -/
def Job.lowerTimers (j : Job) : Job :=
  { j with
    deadlineTimer := j.deadlineTimer.lower, leaseTimer := j.leaseTimer.lower, backoffTimer := j.backoffTimer.lower }

/-- R3: every running schedule timer of the part at an increase of MS. -/
def State.lowerTimers (s : State) : State :=
  { s with
    jobs := s.jobs.map fun x => { x with job := x.job.map Job.lowerTimers }
    la := { s.la with repeatTimer := s.la.repeatTimer.lower }
    rx := { s.rx with holdTimer := s.rx.holdTimer.lower } }

/-- MILLISECOND_TICK, R2, R3: due at every thousandth line tick; MS increases and the timers are lowered. -/
def execMillisecondTick (s : State) : Host.Outcome State Fault Refusal :=
  if Config.ticksPerMs ≤ s.tickCount then
    .next { s.lowerTimers with tickCount := s.tickCount - Config.ticksPerMs, ms := s.ms + 1 }
  else .next s

/-- R107: the sample turns to mark: the line is active, and the quiet measure and the guard are zero. -/
def State.turnToMark (s : State) : State :=
  { s with
    rx := { s.rx with level := .mark, quiet := 0, markTicks := 0 }
    la := { s.la with guard := s.la.guard.map GuardCount.restart } }

/-- R107: the sample turns to space: the line is quiet. -/
def State.turnToSpace (s : State) : State := { s with rx := { s.rx with level := .space } }

/-- DETECT_MARK, R107: DETECT turns to mark, and the space that has ended is judged by the length that the quiet measure
held. -/
def execDetectMark (s : State) : Host.Outcome State Fault Refusal :=
  if s.rx.level = .mark then .next s else .next (s.turnToMark.judgeAtMark s.rx.quiet)

/-- DETECT_SPACE, R107: DETECT turns to space, and the mark that has ended is judged. -/
def execDetectSpace (s : State) : Host.Outcome State Fault Refusal :=
  if s.rx.level = .space then .next s else .next (s.turnToSpace.judgeAtSpace s.rx.markTicks)

/-- R108, R111, R115 to R117, R120: the mark in progress has passed the largest bound that could accept it; the state
its judgement leaves, or `none` while it has not. -/
def State.markTooLong (s : State) : Option State :=
  match s.rx.decoder with
  | .leaderMark => if passesNominal s.longestLeader s.rx.markTicks then some s.noise else none
  | .bits d =>
    match s.profile d.winner with
    | some pr =>
      if passesNominal (d.markNominal pr) s.rx.markTicks then some (s.failDecode d.winner pr .violation) else none
    | none => none
  | .idle | .leaderSpace _ _ | .tail _ | .echo => none

/-- MARK_TOO_LONG, R108. -/
def execMarkTooLong (s : State) : Host.Outcome State Fault Refusal :=
  if s.rx.level = .mark then .next (s.markTooLong.getD s) else .next s

/-- LEADER_SPACE_TOO_LONG, R112: the leader space has passed 5/4 of the largest nominal among the candidates. -/
def execLeaderSpaceTooLong (s : State) : Host.Outcome State Fault Refusal :=
  match s.rx.decoder with
  | .leaderSpace _ longest =>
    if s.rx.level = .space ∧ passesNominal longest s.rx.quiet = true then .next s.noise else .next s
  | _ => .next s

/-- END_GAP_REACHED, R118, R119, R120: the space in progress has reached the winner's end gap in full. -/
def execEndGapReached (s : State) : Host.Outcome State Fault Refusal :=
  match s.rx.decoder with
  | .bits d =>
    match s.profile d.winner with
    | some pr => if s.rx.level = .space ∧ pr.endGapUs ≤ s.rx.quiet then .next (s.closeDecode d pr) else .next s
    | none => .next s
  | _ => .next s

/-- CLOSING_GAP_REACHED, R113, R119: in TAIL the quiet measure has reached the closing gap. -/
def execClosingGapReached (s : State) : Host.Outcome State Fault Refusal :=
  match s.rx.decoder with
  | .tail own => if s.closingGap own ≤ s.rx.quiet then .next (s.setDecoder .idle) else .next s
  | _ => .next s

/-- HOLD_WINDOW_EXPIRY, R124. -/
def execHoldWindowExpiry (s : State) : Host.Outcome State Fault Refusal :=
  match s.rx.tracker with
  | some h => if s.rx.holdTimer.due then .next (s.endHold h) else .next s
  | none => .next s

/-- GUARD_COMPLETE, R53, R57: a candidate whose guard is complete starts; so does a holder in GAP whose period is
done. A holder in GAP whose period still runs waits for it with its guard complete. -/
def execGuardComplete (s : State) : Host.Outcome State Fault Refusal :=
  if s.la.guardComplete then
    match s.la.position with
    | .candidate i _ => .next (s.frameStart i)
    | .holder i => if s.jobIn i .gap = true ∧ s.la.periodDone = true then .next (s.frameStart i) else .next s
    | .empty => .next s
  else .next s

/-- R55, R57: the repeat-period timer stays expired, and period_done is yes. -/
def State.endPeriod (s : State) : State := { s with la := { s.la with repeatTimer := none, periodDone := true } }

/-- REPEAT_PERIOD_EXPIRY, R55, R57: a holder in GAP whose guard is complete starts its next transmission; otherwise
period_done becomes yes. -/
def execRepeatPeriodExpiry (s : State) : Host.Outcome State Fault Refusal :=
  if s.la.repeatTimer.due then
    match s.la.position with
    | .holder i => if s.jobIn i .gap = true ∧ s.la.guardComplete = true then .next (s.endPeriod.frameStart i)
        else .next s.endPeriod
    | .candidate _ _ | .empty => .next s
  else .next s

/-- DONE, R73 to R76: the last tick of the last segment has been driven. -/
def execDriveDone (s : State) : Host.Outcome State Fault Refusal :=
  match s.tx.drive with
  | some d => if d.finished then .next (s.stopDrive.frameEnd d.slot d.form) else .next s
  | none => .next s

/-- COLLISION, R78, R79: the disagreement count exceeds half a cell. -/
def execCollision (s : State) : Host.Outcome State Fault Refusal :=
  match s.tx.drive with
  | some d => if d.collides s.tx.disagree then .next (s.stopDrive.collided d.slot) else .next s
  | none => .next s

end Sys2Proof.Machine
end

