-- ==== Sys2Proof/Machine/PortCommands.lean ====
section
/-! DEFINITION. The meanings of the port wires' commands: select, deselect and the edges of SCKn. They touch the state
of their own port alone (R159). -/

namespace Sys2Proof.Machine

/-- SELECT, R159, R161, R162, R166: nSELn goes low. A select that is already low does not go low again. -/
def execSelect (p : Port) (s : State) : Host.Outcome State Fault Refusal :=
  if (s.port p).selectLow then .next s else .next (s.modifyPort p HostPort.select)

/-- DESELECT, R159, R161, R163 to R167: nSELn goes high. -/
def execDeselect (p : Port) (s : State) : Host.Outcome State Fault Refusal :=
  if (s.port p).selectLow then .next (s.modifyPort p HostPort.deselect) else .next s

/-- SERIAL_CLOCK_EDGE, R159, R162, R163: an edge of SCKn. -/
def execSerialClockEdge (p : Port) (edge : Edge) (s : State) : Host.Outcome State Fault Refusal :=
  .next (s.modifyPort p fun h => h.clockEdge edge)

end Sys2Proof.Machine
end

