-- ==== Sys2Proof/Machine/ProfileRequests.lean ====
section
/-! DEFINITION. The requests of the profile table: PROFILE_SET and PROFILE_GET. -/

namespace Sys2Proof.Machine

/-- R15: a profile record replaced, or left undefined. -/
def State.setProfile (s : State) (q : ProfileId) (x : Option Profile) : State :=
  { s with profiles := s.profiles.set q x }

/-- R14, checks 2 to 4, and R15, for a PROFILE_SET of profile q that passed check 1. -/
def profileDefineReply (q : ProfileId) (define : Bool) (body : List Byte) (s : State) : Reply :=
  if define then
    match profileOfBody body with
    | none => Reply.refuse s .badProfile
    | some pr =>
      if pr.passesPeriodTest = false then Reply.refuse s .badProfile
      else if s.inUse q then Reply.refuse s .inUse
      else { status := .ok, body := [], state := s.setProfile q (some pr) }
  else if s.inUse q then Reply.refuse s .inUse
  else { status := .ok, body := [], state := s.setProfile q none }

/-- R14. -/
def profileSetReply (r : Request) (s : State) : Reply :=
  match finOf 4 (bodyNat r.body 0), boolOfCode (bodyNat r.body 1) with
  | some q, some define => profileDefineReply q define r.body s
  | _, _ => Reply.refuse s .badValue

/-- PROFILE_SET, R14, R15. -/
def execProfileSet (p : Port) (s : State) : Host.Outcome State Fault Refusal :=
  s.takeRequest .profileSet p profileSetReply

/-- R17, R184: the snapshot of a profile. -/
def State.profileBody (s : State) (q : ProfileId) : List Byte :=
  [byte q.val, boolByte (s.profile q).isSome] ++ profileFields (s.profile q)
    ++ [byte (s.jobsUsing q), byte (s.subsUsing q), boolByte (s.listening q)]

/-- R17. -/
def profileGetReply (r : Request) (s : State) : Reply :=
  match finOf 4 (bodyNat r.body 0) with
  | none => Reply.refuse s .badValue
  | some q => { status := .ok, body := s.profileBody q, state := s }

/-- PROFILE_GET, R17. -/
def execProfileGet (p : Port) (s : State) : Host.Outcome State Fault Refusal :=
  s.takeRequest .profileGet p profileGetReply

end Sys2Proof.Machine
end

