-- ==== Sys2Proof/Machine/RingRequests.lean ====
section
/-! DEFINITION. The requests of the frame memory: RING_SET, RING_READ and RING_QUERY. -/

namespace Sys2Proof.Machine

/-- R146 check 3: the slots base to base + depth − 1 touch a ring. -/
def Ring.touches (r : Ring) (base depth : Nat) : Bool := decide (base < r.base + r.depth ∧ r.base < base + depth)

/-- R146 check 3: the range touches a defined ring of another port. -/
def State.overlaps (s : State) (p : Port) (base depth : Nat) : Bool :=
  allPorts.any fun q => q != p && (s.ring q).any fun r => r.touches base depth

/-- R147, R148: the descriptor that a RING_SET leaves. -/
def RingRequest.ring (x : RingRequest) : Option Ring :=
  if x.depth = 0 then none
  else some { base := x.base, depth := x.depth, policy := x.policy, head := 0, count := 0, pendingMissed := 0 }

/-- R146 checks 2 to 4, R147, R148. -/
def State.placeRing (s : State) (p : Port) (x : RingRequest) : Reply :=
  if 1 ≤ x.depth ∧ Config.memSlots < x.base + x.depth then Reply.refuse s .badRange
  else if 1 ≤ x.depth ∧ s.overlaps p x.base x.depth = true then Reply.refuse s .overlap
  else if 0 < s.ringCount p ∧ x.discard = false then Reply.refuse s .ringNotEmpty
  else { status := .ok, body := [], state := s.replaceRing p x.ring }

/-- R146. -/
def ringSetReply (p : Port) (r : Request) (s : State) : Reply :=
  match ringRequestOfBody r.body with
  | none => Reply.refuse s .badValue
  | some x => s.placeRing p x

/-- RING_SET, R146 to R148. -/
def execRingSet (p : Port) (s : State) : Host.Outcome State Fault Refusal := s.takeRequest .ringSet p (ringSetReply p)

/-- R154: the n oldest records of a ring removed, one after the other: the bytes they held, and what is left. -/
def Ring.takeOldest (r : Ring) (m : List Host.Cell) : Nat → List Byte × Ring × List Host.Cell
  | 0 => ([], r, m)
  | n + 1 =>
    let bytes := Memory.readSlot (r.slotAt 0) m
    let (r1, m1) := r.removeOldest m
    let (rest, r2, m2) := Ring.takeOldest r1 m1 n
    (bytes ++ rest, r2, m2)

/-- R154: a read of n records from the caller's ring. -/
def State.readRing (s : State) (p : Port) (n : Nat) : Reply :=
  match s.ring p with
  | none => { status := .ok, body := [0, 0, 0], state := s }
  | some r =>
    let k := min n r.count
    let (bytes, r', m) := r.takeOldest s.mem k
    { status := .ok, body := [1, byte k, byte r'.count] ++ bytes,
      state := (({ s with mem := m }).setRing p (some r')).attend p }

/-- R154. -/
def ringReadReply (p : Port) (r : Request) (s : State) : Reply :=
  match readCountOfBody r.body with
  | none => Reply.refuse s .badValue
  | some n => s.readRing p n

/-- RING_READ, R154. -/
def execRingRead (p : Port) (s : State) : Host.Outcome State Fault Refusal := s.takeRequest .ringRead p (ringReadReply p)

/-- R156, R184: the descriptor's fields; zeros for an undefined ring. -/
def ringFields : Option Ring → List Byte
  | none => List.replicate 7 0
  | some r => [1, byte r.base, byte r.depth, r.policy.code, byte r.head, byte r.count, byte r.pendingMissed]

/-- R156, R184: a triple of defined, base and depth. -/
def ringTriple : Option Ring → List Byte
  | none => [0, 0, 0]
  | some r => [1, byte r.base, byte r.depth]

/-- R156, R184. -/
def State.ringBody (s : State) (p : Port) : List Byte :=
  ringFields (s.ring p) ++ allPorts.flatMap fun q => ringTriple (s.ring q)

/-- R156. -/
def ringQueryReply (p : Port) (_r : Request) (s : State) : Reply := { status := .ok, body := s.ringBody p, state := s }

/-- RING_QUERY, R156. -/
def execRingQuery (p : Port) (s : State) : Host.Outcome State Fault Refusal :=
  s.takeRequest .ringQuery p (ringQueryReply p)

end Sys2Proof.Machine
end

