-- ==== Sys2Proof/Machine/SessionRequests.lean ====
section
/-! DEFINITION. The requests of the host port: HELLO, OPEN, CLOSE, SET_ATTN, NOTICE_FETCH and LINE_QUERY. -/

namespace Sys2Proof.Machine

/-! ### HELLO -/

/-- R176, R184: what HELLO reports. -/
def State.helloBody (s : State) (p : Port) : List Byte :=
  le16 Config.identity ++ [byte Config.revision, byte s.stn.toNat, byte p.val, boolByte (s.port p).isOpen,
    (s.port p).epoch] ++ Config.capacities.map byte

/-- R176. -/
def helloReply (p : Port) (_r : Request) (s : State) : Reply := { status := .ok, body := s.helloBody p, state := s }

/-- HELLO, R176. -/
def execHello (p : Port) (s : State) : Host.Outcome State Fault Refusal := s.takeRequest .hello p (helloReply p)

/-! ### OPEN -/

/-- R172: the port at an accepted OPEN. -/
def HostPort.opened (h : HostPort) : HostPort :=
  { h with epoch := h.epoch + 1, isOpen := true, notices := [], threshold := 1 }

/-- R140, R172: an accepted OPEN of port p. -/
def State.openPort (s : State) (p : Port) : State :=
  State.attend { s.modifyPort p HostPort.opened with seqs := s.seqs.set p 0 } p

/-- R172. -/
def openReply (p : Port) (_r : Request) (s : State) : Reply :=
  if (s.port p).isOpen then Reply.refuse s .alreadyOpen
  else { status := .ok, body := [(s.port p).epoch + 1], state := s.openPort p }

/-- OPEN, R172. -/
def execOpen (p : Port) (s : State) : Host.Outcome State Fault Refusal := s.takeRequest .openSession p (openReply p)

/-! ### CLOSE -/

/-- R142: every entry of port p is freed, and the listening set is re-evaluated once. -/
def State.freeEntries (s : State) (p : Port) : State :=
  State.reevaluateListening { s with entries := s.entries.map fun x => x.filter fun e => e.owner != p }

/-- R173: the port at an accepted CLOSE. -/
def HostPort.closed (h : HostPort) : HostPort := { h with isOpen := false, notices := [] }

/-- R173, R174: an accepted CLOSE of port p. -/
def State.closePort (s : State) (p : Port) (cut : Bool) : State :=
  (((((s.closeJobs p cut).freeEntries p).replaceRing p none).modifyPort p HostPort.closed).attend p)

/-- R173: jobs_ended, the jobs of the port whose slots become FREE at the close. -/
def State.jobsEnded (s : State) (p : Port) (cut : Bool) : Nat :=
  s.countJobs fun j => j.closesWith p && (cut || j.state != .sending)

/-- R173, R184: what CLOSE reports, from the state before it. -/
def State.closeBody (s : State) (p : Port) (cut : Bool) : List Byte :=
  [byte (s.jobsEnded p cut), boolByte (!cut && s.portSending p), byte (s.port p).notices.length,
    byte (s.ringCount p)]

/-- R173. -/
def closeReply (p : Port) (r : Request) (s : State) : Reply :=
  match boolOfCode (bodyNat r.body 0) with
  | none => Reply.refuse s .badValue
  | some cut => { status := .ok, body := s.closeBody p cut, state := s.closePort p cut }

/-- CLOSE, R173. -/
def execClose (p : Port) (s : State) : Host.Outcome State Fault Refusal := s.takeRequest .closeSession p (closeReply p)

/-! ### SET_ATTN -/

/-- R178: the threshold takes a new value, and the attention condition is re-evaluated. -/
def State.setThreshold (s : State) (p : Port) (n : Nat) : State :=
  (s.modifyPort p fun h => { h with threshold := n }).attend p

/-- R178. -/
def setAttnReply (p : Port) (r : Request) (s : State) : Reply :=
  match inRange 1 64 (bodyNat r.body 0) with
  | none => Reply.refuse s .badValue
  | some n =>
    let s' := s.setThreshold p n
    { status := .ok, body := [byte n, boolByte (s'.port p).attn], state := s' }

/-- SET_ATTN, R178. -/
def execSetAttn (p : Port) (s : State) : Host.Outcome State Fault Refusal := s.takeRequest .setAttn p (setAttnReply p)

/-! ### NOTICE_FETCH -/

/-- R103: the oldest n notices are removed. -/
def State.dropNotices (s : State) (p : Port) (n : Nat) : State :=
  (s.modifyPort p fun h => { h with notices := h.notices.drop n }).attend p

/-- R103, R184: the notices that a fetch of n returns, with count and remaining. -/
def fetchBody (held : List Notice) (n : Nat) : List Byte :=
  [byte (held.take n).length, byte (held.drop n).length] ++ (held.take n).flatMap Notice.record

/-- R103. -/
def noticeFetchReply (p : Port) (r : Request) (s : State) : Reply :=
  match readCountOfBody r.body with
  | none => Reply.refuse s .badValue
  | some n => { status := .ok, body := fetchBody (s.port p).notices n, state := s.dropNotices p n }

/-- NOTICE_FETCH, R103. -/
def execNoticeFetch (p : Port) (s : State) : Host.Outcome State Fault Refusal :=
  s.takeRequest .noticeFetch p (noticeFetchReply p)

/-! ### LINE_QUERY -/

/-- R67, R184 bytes 0 to 5: the line position and the job in it. -/
def State.positionBytes (s : State) : List Byte :=
  let jobBytes (i : SlotId) : List Byte :=
    [byte i.val, byte (s.jobClass i).val, ((s.job i).map fun j => j.state.code).getD 0]
  match s.la.position with
  | .empty => List.replicate 6 0
  | .candidate i o => [1] ++ jobBytes i ++ [o.code, 0]
  | .holder i => [2] ++ jobBytes i ++ [0, boolByte (s.jobIn i .gap && s.la.periodDone)]

/-- R67, R184: the body of LINE_QUERY. -/
def State.lineBody (s : State) : List Byte :=
  s.positionBytes ++ [byte s.la.stack.length]
    ++ padTo 6 (s.la.stack.flatMap fun i => [byte i.val, byte (s.jobClass i).val])
    ++ allClasses.map (fun c => byte s.la.queues[c].length)
    ++ [byte s.la.backoff.length, boolByte s.rx.reportsQuiet]

/-- R67. -/
def lineQueryReply (_r : Request) (s : State) : Reply := { status := .ok, body := s.lineBody, state := s }

/-- LINE_QUERY, R67. -/
def execLineQuery (p : Port) (s : State) : Host.Outcome State Fault Refusal := s.takeRequest .lineQuery p lineQueryReply

end Sys2Proof.Machine
end

