-- ==== Sys2Proof/Machine/SubscriptionRequests.lean ====
section
/-! DEFINITION. The requests of the delivery unit: SUBSCRIBE, UNSUBSCRIBE, SUB_ENABLE and SUB_LIST. -/

namespace Sys2Proof.Machine

/-- R18, R129, R131, R132: an entry replaced, and the listening set re-evaluated. -/
def State.changeEntry (s : State) (e : EntryId) (x : Option Entry) : State := (s.setEntry e x).reevaluateListening

/-- R129: the lowest-numbered free entry. -/
def State.freeEntry (s : State) : Option EntryId := allEntries.find? fun e => (s.entry e).isNone

/-- R128, R129. -/
def subscribeReply (p : Port) (r : Request) (s : State) : Reply :=
  match entryOfBody p r.body with
  | none => Reply.refuse s .badValue
  | some x =>
    if (s.profile x.profile).isNone then Reply.refuse s .noProfile
    else
      match s.freeEntry with
      | none => Reply.refuse s .tableFull
      | some e => { status := .ok, body := [byte e.val], state := s.changeEntry e (some x) }

/-- SUBSCRIBE, R128, R129. -/
def execSubscribe (p : Port) (s : State) : Host.Outcome State Fault Refusal :=
  s.takeRequest .subscribe p (subscribeReply p)

/-- R130: a request that names an entry of the caller; BAD_VALUE and NOT_OWNER otherwise. -/
def State.withEntry (s : State) (p : Port) (body : List Byte) (f : EntryId → Entry → Reply) : Reply :=
  match (finOf 16 (bodyNat body 0)).bind fun e => (s.entry e).map (e, ·) with
  | none => Reply.refuse s .badValue
  | some (e, x) => if x.owner = p then f e x else Reply.refuse s .notOwner

/-- R131. -/
def unsubscribeReply (p : Port) (r : Request) (s : State) : Reply :=
  s.withEntry p r.body fun e _ => { status := .ok, body := [], state := s.changeEntry e none }

/-- UNSUBSCRIBE, R130, R131. -/
def execUnsubscribe (p : Port) (s : State) : Host.Outcome State Fault Refusal :=
  s.takeRequest .unsubscribe p (unsubscribeReply p)

/-- R132. -/
def subEnableReply (p : Port) (r : Request) (s : State) : Reply :=
  s.withEntry p r.body fun e x =>
    match boolOfCode (bodyNat r.body 1) with
    | none => Reply.refuse s .badValue
    | some on =>
      if on = x.enabled then { status := .ok, body := [], state := s }
      else if on = true ∧ (s.profile x.profile).isNone = true then Reply.refuse s .noProfile
      else { status := .ok, body := [], state := s.changeEntry e (some { x with enabled := on }) }

/-- SUB_ENABLE, R130, R132. -/
def execSubEnable (p : Port) (s : State) : Host.Outcome State Fault Refusal :=
  s.takeRequest .subEnable p (subEnableReply p)

/-- R133, R184: the four bytes of a listed entry. -/
def State.entryBytes (s : State) (e : EntryId) (x : Entry) : List Byte :=
  [byte (e.val + 16 * x.profile.val + 64 * x.enabled.toNat + 128 * (s.profile x.profile).isSome.toNat), x.value, x.mask,
    byte x.kinds.toNat]

/-- R133: the caller's entries, in increasing id. -/
def State.entriesOf (s : State) (p : Port) : List (EntryId × Entry) :=
  allEntries.filterMap fun e => ((s.entry e).filter fun x => x.owner == p).map (e, ·)

/-- R133, R184. -/
def State.entryListBody (s : State) (p : Port) : List Byte :=
  [byte (s.entriesOf p).length] ++ (s.entriesOf p).flatMap fun x => s.entryBytes x.1 x.2

/-- R133. -/
def subListReply (p : Port) (_r : Request) (s : State) : Reply :=
  { status := .ok, body := s.entryListBody p, state := s }

/-- SUB_LIST, R133. -/
def execSubList (p : Port) (s : State) : Host.Outcome State Fault Refusal := s.takeRequest .subList p (subListReply p)

end Sys2Proof.Machine
end

