-- ==== Sys2Proof/Machine/TimerCommands.lean ====
section
/-! DEFINITION. The meanings of the job table's timer expiries. An expiry that is not due does not happen (R3: a stopped
timer does not expire; log 5). -/

namespace Sys2Proof.Machine

/-- BACKOFF_EXPIRY, R41, R81: the job joins the head of its class queue. -/
def execBackoffExpiry (slot : SlotId) (s : State) : Host.Outcome State Fault Refusal :=
  if s.jobSatisfies (fun j => j.state == .backoff && j.backoffTimer.due) slot then
    .next (((s.vacate slot).modifyJob slot fun j => { j with backoffTimer := none }).joinHead slot)
  else .next s

/-- DEADLINE_EXPIRY, R39, R97: the unstarted job ends EXPIRED. -/
def execDeadlineExpiry (slot : SlotId) (s : State) : Host.Outcome State Fault Refusal :=
  if s.jobSatisfies (·.deadlineTimer.due) slot then .next (s.endJob slot .expired) else .next s

/-- R95: the record of a job that lapses in SENDING: the timer stays stopped, and end_pending becomes LAPSED if it was
absent. -/
def Job.lapseSending (j : Job) : Job :=
  { j with leaseTimer := none, endPending := some (j.endPending.getD .lapsed) }

/-- LEASE_EXPIRY, R40, R95: the job lapses: in SENDING at the end of the frame in flight, elsewhere at once. -/
def execLeaseExpiry (slot : SlotId) (s : State) : Host.Outcome State Fault Refusal :=
  if s.jobSatisfies (·.leaseTimer.due) slot then
    if s.jobIn slot .sending then .next (s.modifyJob slot Job.lapseSending) else .next (s.endJob slot .lapsed)
  else .next s

end Sys2Proof.Machine
end

