-- ==== Sys2Proof/Machine/Dispatch.lean ====
section
/-! DEFINITION. The meaning of every command of spec/opcode_table.json. -/

namespace Sys2Proof.Machine

def exec (i : Instr) (s : State) : Host.Outcome State Fault Refusal :=
  match i with
  | .fullReset straps => Sys2Proof.Machine.execFullReset straps s
  | .lineTick => Sys2Proof.Machine.execLineTick s
  | .millisecondTick => Sys2Proof.Machine.execMillisecondTick s
  | .detectMark => Sys2Proof.Machine.execDetectMark s
  | .detectSpace => Sys2Proof.Machine.execDetectSpace s
  | .markTooLong => Sys2Proof.Machine.execMarkTooLong s
  | .leaderSpaceTooLong => Sys2Proof.Machine.execLeaderSpaceTooLong s
  | .endGapReached => Sys2Proof.Machine.execEndGapReached s
  | .closingGapReached => Sys2Proof.Machine.execClosingGapReached s
  | .holdWindowExpiry => Sys2Proof.Machine.execHoldWindowExpiry s
  | .guardComplete => Sys2Proof.Machine.execGuardComplete s
  | .repeatPeriodExpiry => Sys2Proof.Machine.execRepeatPeriodExpiry s
  | .driveDone => Sys2Proof.Machine.execDriveDone s
  | .collision => Sys2Proof.Machine.execCollision s
  | .backoffExpiry slot => Sys2Proof.Machine.execBackoffExpiry slot s
  | .deadlineExpiry slot => Sys2Proof.Machine.execDeadlineExpiry slot s
  | .leaseExpiry slot => Sys2Proof.Machine.execLeaseExpiry slot s
  | .select p => Sys2Proof.Machine.execSelect p s
  | .deselect p => Sys2Proof.Machine.execDeselect p s
  | .hello p => Sys2Proof.Machine.execHello p s
  | .openSession p => Sys2Proof.Machine.execOpen p s
  | .closeSession p => Sys2Proof.Machine.execClose p s
  | .setAttn p => Sys2Proof.Machine.execSetAttn p s
  | .noticeFetch p => Sys2Proof.Machine.execNoticeFetch p s
  | .lineQuery p => Sys2Proof.Machine.execLineQuery p s
  | .profileSet p => Sys2Proof.Machine.execProfileSet p s
  | .profileGet p => Sys2Proof.Machine.execProfileGet p s
  | .submit p => Sys2Proof.Machine.execSubmit p s
  | .keep p => Sys2Proof.Machine.execKeep p s
  | .release p => Sys2Proof.Machine.execRelease p s
  | .cancel p => Sys2Proof.Machine.execCancel p s
  | .jobQuery p => Sys2Proof.Machine.execJobQuery p s
  | .subscribe p => Sys2Proof.Machine.execSubscribe p s
  | .unsubscribe p => Sys2Proof.Machine.execUnsubscribe p s
  | .subEnable p => Sys2Proof.Machine.execSubEnable p s
  | .subList p => Sys2Proof.Machine.execSubList p s
  | .ringSet p => Sys2Proof.Machine.execRingSet p s
  | .ringRead p => Sys2Proof.Machine.execRingRead p s
  | .ringQuery p => Sys2Proof.Machine.execRingQuery p s
  | .serialClockEdge p edge => Sys2Proof.Machine.execSerialClockEdge p edge s

end Sys2Proof.Machine
end

