-- ==== Sys2Proof/Safety.lean ====
section
/-! DEFINITION. What a sound state of the part is: the laws of the device that the manual states over every step, each as
a predicate on a state. -/

namespace Sys2Proof.Machine

/-! ### The arbiter -/

/-- R46: every place in the arbiter, one after the other. -/
def Arbiter.places (a : Arbiter) : List SlotId :=
  a.queues[0] ++ a.queues[1] ++ a.queues[2] ++ a.queues[3] ++ a.stack ++ a.backoff ++ a.position.slot.toList

/-- R23: the place that a job of class c in a given state stands in. -/
def Arbiter.standsIn (a : Arbiter) (i : SlotId) (c : Class) : JobState → Prop
  | .queued => i ∈ a.queues[c]
  | .starting => ∃ o, a.position = .candidate i o
  | .sending => a.position = .holder i
  | .gap => a.position = .holder i
  | .suspended => i ∈ a.stack
  | .backoff => i ∈ a.backoff

/-- R23, R46, R49: a slot stands in at most one place, a FREE slot in none, and a job in the place of its state. -/
def State.placesLawful (s : State) : Prop :=
  s.la.places.Nodup ∧ (∀ i ∈ s.la.places, (s.job i).isSome = true) ∧
    ∀ i j, s.job i = some j → s.la.standsIn i j.cls j.state

/-- R68: the sequencer is DRIVING exactly while a job is SENDING, and the current slot is that job's. -/
def State.driveLawful (s : State) : Prop :=
  ∀ i, s.jobIn i .sending = true ↔ ∃ d, s.tx.drive = some d ∧ d.slot = i

/-- R22, R24: a job that has not started is QUEUED, or it is STARTING and came from its queue. -/
def State.startsLawful (s : State) : Prop :=
  ∀ i j, s.job i = some j → j.started = false → j.state = .queued ∨ s.la.position = .candidate i .queue

/-- R39: a running deadline belongs to a job that has not started. -/
def State.deadlinesLawful (s : State) : Prop :=
  ∀ i j, s.job i = some j → j.deadlineTimer.isSome = true → j.started = false

/-- R22, R23, R39, R46, R49, R68 together. -/
def State.arbiterLawful (s : State) : Prop :=
  s.placesLawful ∧ s.driveLawful ∧ s.startsLawful ∧ s.deadlinesLawful

/-- A job that has begun its repetitions: started, and BURST or HELD (R24, R48). -/
def State.repeats (s : State) (i : SlotId) : Bool := s.jobSatisfies (fun j => j.started && j.kind != .oneshot) i

/-- R48: the stack's classes increase strictly from bottom to top and stay below 3, the job in the line position has a
class above the top's, and a job that is suspended, popped from the stack or in GAP is a started BURST or HELD job. -/
def State.stackLawful (s : State) : Prop :=
  (s.la.stack.map s.jobClass).Pairwise (· < ·) ∧
    (∀ i ∈ s.la.stack, s.jobClass i < 3 ∧ s.repeats i = true) ∧
    (∀ i ∈ s.la.position.slot, ∀ t ∈ s.la.stack.getLast?, s.jobClass t < s.jobClass i) ∧
    ∀ i, s.la.position = .candidate i .stack ∨ s.jobIn i .gap = true → s.repeats i = true

/-- R51: the line position is empty only when every queue and the stack are empty. -/
def State.selectionLawful (s : State) : Prop :=
  s.la.position = .empty → s.la.stack = [] ∧ ∀ c : Class, s.la.queues[c] = []

/-! ### Profiles, rings and ports -/

/-- R16: a profile that a job or an enabled entry names is defined. -/
def State.referencesLawful (s : State) : Prop :=
  (∀ i j, s.job i = some j → (s.profile j.profile).isSome = true) ∧
    ∀ e x, s.entry e = some x → x.enabled = true → (s.profile x.profile).isSome = true

/-- R144, R145: a ring lies within the memory, its head and count fit its depth, and under KEEP_NEW nothing is pending
(R153). -/
def Ring.lawful (r : Ring) : Prop :=
  1 ≤ r.depth ∧ r.depth ≤ Config.maxDepth ∧ r.base + r.depth ≤ Config.memSlots ∧ r.head < r.depth ∧ r.count ≤ r.depth ∧
    r.pendingMissed ≤ 255 ∧ (r.policy = .keepNew → r.pendingMissed = 0)

/-- R145: every ring is lawful, and the rings of two ports share no slot. -/
def State.ringsLawful (s : State) : Prop :=
  (∀ p r, s.ring p = some r → r.lawful) ∧
    ∀ p q rp rq, p ≠ q → s.ring p = some rp → s.ring q = some rq → rp.touches rq.base rq.depth = false

/-- R35: a port's jobs that are not FREE and its notices number at most 8. -/
def State.noticeRoomLawful (s : State) : Prop := ∀ p, s.noticeSum p ≤ Config.noticeRoom

/-- R177: ATTNn is at the level of its condition. -/
def State.attentionLawful (s : State) : Prop := ∀ p, (s.port p).attn = s.attentionDue p

/-- R161, R166: a port is EXECUTING exactly while a request is pending, a transaction in progress has nSELn low, and a
port is not SELECTED in a refused transaction. -/
def HostPort.lawful (h : HostPort) : Prop :=
  (h.txn = .executing ↔ h.request.isSome = true) ∧ (h.inTransaction = true → h.selectLow = true) ∧
    ¬(h.txn = .selected ∧ h.refused = true)

/-- R161, R166 at every port. -/
def State.portsLawful (s : State) : Prop := ∀ p, (s.port p).lawful

/-- R171, R175: what a port holds, it holds in an open session. A pending request that needs a session, an entry, a ring
and a notice belong to a port whose session is open. So does a job that is no orphan, and it carries its port's epoch
(R89). An orphan is SENDING (R44). -/
def State.sessionsLawful (s : State) : Prop :=
  (∀ p, ∀ r ∈ (s.port p).request, r.kind.needsSession = true → (s.port p).isOpen = true) ∧
    (∀ e x, s.entry e = some x → (s.port x.owner).isOpen = true) ∧
    (∀ p, (s.ring p).isSome = true → (s.port p).isOpen = true) ∧
    (∀ p, (s.port p).notices ≠ [] → (s.port p).isOpen = true) ∧
    ∀ i j, s.job i = some j →
      if j.orphan then j.state = .sending else (s.port j.owner).isOpen = true ∧ j.epoch = (s.port j.owner).epoch

/-- R181: a response body has at most 67 bytes, and is there only with OK and MERGED. -/
def Response.lawful (r : Response) : Prop :=
  r.body.length ≤ 67 ∧ (r.status ≠ .ok → r.status ≠ .merged → r.body = [])

/-- R168, R181 at every port. -/
def State.responsesLawful (s : State) : Prop := ∀ p, ∀ r ∈ (s.port p).response, r.lawful

/-! ### What a claim says of a request -/

/-- The host of port p waits for the answer to a request: R161, EXECUTING with the request pending. -/
def State.asks (s : State) (p : Port) (k : RequestKind) (tag : Byte) (body : List Byte) : Prop :=
  (s.port p).request = some { kind := k, tag, body }

/-- R165: the state once port p's request is answered and nothing else has changed: the response stands in the buffer,
nothing is pending, and the port is IDLE. -/
def State.answered (s : State) (p : Port) (k : RequestKind) (tag : Byte) (status : Status) (body : List Byte) : State :=
  { s with ports := s.ports.set p { s.port p with
      txn := .idle, request := none, response := some { code := k.code, tag, status, body } } }

end Sys2Proof.Machine
end

