-- ==== Sys2Proof/Certificates/Slice0/Obligations.lean ====
section
/-! DEFINITION. The statements about the part, each from the numbered rules its docstring names. Names under `Claims` are
terms that the statements share. -/

section Claims
open Sys2Proof Sys2Proof.Machine

/-! ### The machine -/

/-- A step takes the command at the front of the queue and runs it on the part with the rest of the queue; with an empty
queue the part idles. How commands wait, and that the part idles without one, is the model's choice (log 6). -/
def Obligations.FrontCommandRuns : Prop :=
  (∀ (c : Instr) (rest : List Instr) (s : State), step { s with pending := c :: rest } = exec c { s with pending := rest }) ∧
    ∀ s : State, s.pending = [] → step s = .next s

/-- Every command completes in every state: none faults and none is refused, which is read from the manual's silence on
anything that would stop the part (log 21, DEDUCED), and none touches the queue of waiting commands, which is the model's
own (log 6 and 15, DESIGN CHOICE). -/
def Obligations.EveryCommandCompletes : Prop :=
  ∀ (c : Instr) (s : State), ∃ t, exec c s = .next t ∧ t.pending = s.pending

/-- Each of these pieces of state is changed by its own commands and by full reset alone: STN by full reset (R4), MS by
the millisecond tick (R2), a profile by PROFILE_SET (R15), a ticket by SUBMIT (R21), an entry by SUBSCRIBE, UNSUBSCRIBE,
SUB_ENABLE and CLOSE (R127), and of each port the session by its own OPEN and CLOSE, the epoch by its own OPEN, the
threshold by its own OPEN and SET_ATTN (R160, R171), and the state of the wires by its own wires (R159). -/
def Obligations.StateChangesByItsOwnCommands : Prop :=
  ∀ (c : Instr) (s t : State), exec c s = .next t → (∀ straps, c ≠ .fullReset straps) →
    t.stn = s.stn ∧
    (c ≠ .millisecondTick → t.ms = s.ms) ∧
    ((∀ p, c ≠ .profileSet p) → t.profiles = s.profiles) ∧
    ((∀ p, c ≠ .submit p) → ∀ i, t.ticket i = s.ticket i) ∧
    ((∀ p, c ≠ .subscribe p ∧ c ≠ .unsubscribe p ∧ c ≠ .subEnable p ∧ c ≠ .closeSession p) → t.entries = s.entries) ∧
    ∀ p, (c ≠ .openSession p → c ≠ .closeSession p → (t.port p).isOpen = (s.port p).isOpen) ∧
      (c ≠ .openSession p → (t.port p).epoch = (s.port p).epoch) ∧
      (c ≠ .openSession p → c ≠ .setAttn p → (t.port p).threshold = (s.port p).threshold) ∧
      (c ≠ .select p → c ≠ .deselect p → (∀ e, c ≠ .serialClockEdge p e) →
        (t.port p).selectLow = (s.port p).selectLow ∧ (t.port p).clockHigh = (s.port p).clockHigh ∧
        (t.port p).sdo = (s.port p).sdo ∧ (t.port p).refused = (s.port p).refused ∧
        (t.port p).bitsIn = (s.port p).bitsIn ∧ (t.port p).received = (s.port p).received ∧
        (t.port p).out = (s.port p).out ∧ (t.port p).outBit = (s.port p).outBit)

/-! ### Reset and the clock -/

/-- R180, with the reset columns of R20, R45, R68, R106, R127, R140, R144 and R160: FULL_RESET clears every block, takes
STN from the straps, ends every job and every request without an answer, and leaves the pins of the host where they are.
These clauses are the model's choice: the levels of the select and clock pins stay (log 2), SDOn is not driven even where
nSELn was left low (log 8, DEDUCED), the waiting commands stay (log 15), an empty frame memory lists nothing (log 4), and
the line level before the first tick is space (log 3). -/
def Obligations.FullResetClears : Prop :=
  ∀ (straps : BitVec 4) (s : State), ∃ t, exec (.fullReset straps) s = .next t ∧
    t.stn = straps ∧ t.ms = 0 ∧ t.tickCount = 0 ∧ t.pending = s.pending ∧
    (∀ q, t.profile q = none) ∧
    (∀ i, t.job i = none ∧ t.ticket i = 0) ∧
    (∀ c : Fin 4, t.la.queues[c] = []) ∧ t.la.stack = [] ∧ t.la.backoff = [] ∧ t.la.position = .empty ∧
    t.la.guard = none ∧ t.la.repeatTimer = none ∧ t.la.periodDone = false ∧
    t.tx.drive = none ∧ t.tx.disagree = 0 ∧ t.tx.pin = 0 ∧
    t.rx.level = .space ∧ t.rx.quiet = 0 ∧ t.rx.markTicks = 0 ∧ t.rx.decoder = .idle ∧ t.rx.tracker = none ∧
    t.rx.holdTimer = none ∧
    (∀ e, t.entry e = none) ∧ (∀ p : Port, t.seqs[p] = 0) ∧ (∀ p, t.ring p = none) ∧ t.mem = [] ∧
    ∀ p, t.port p =
      { selectLow := (s.port p).selectLow, clockHigh := (s.port p).clockHigh, sdo := none, txn := .idle,
        refused := false, bitsIn := [], received := [], out := [], outBit := 0, request := none, response := none,
        isOpen := false, epoch := 0, notices := [], threshold := 1, attn := false }

/-- The state after full reset obeys every law of the part that a statement below calls an invariant. -/
def Obligations.ResetStateIsLawful : Prop :=
  Memory.wf State.reset.mem = true ∧ State.reset.arbiterLawful ∧ State.reset.stackLawful ∧
    State.reset.selectionLawful ∧ State.reset.referencesLawful ∧ State.reset.ringsLawful ∧
    State.reset.noticeRoomLawful ∧ State.reset.attentionLawful ∧ State.reset.portsLawful ∧
    State.reset.responsesLawful ∧ State.reset.sessionsLawful

/-- LINE_TICK, R52, R72, R77, R107: a tick counts the quiet measure up to one second, or the mark's length; it advances
the guard on quiet line, up to its target; it moves the drive one tick on, counts a disagreement with DETECT or clears
the count, and puts the levels of the next tick on DRIVE: high in the on part of each carrier period of a mark. It
changes nothing else. -/
def Obligations.LineTickAdvancesLine : Prop :=
  (∀ s : State, exec .lineTick s = .next { s with
    tickCount := s.tickCount + 1
    rx := if s.rx.level = .space then { s.rx with quiet := min (s.rx.quiet + 1) 1000000 }
      else { s.rx with quiet := 0, markTicks := s.rx.markTicks + 1 }
    la := if s.rx.level = .space then
        { s.la with guard := s.la.guard.map fun g => { g with count := if g.count < g.target then g.count + 1 else g.count } }
      else s.la
    tx := s.tx.tick s.rx.level }) ∧
  (∀ (tx : Transmitter) (detect : Level), tx.drive = none → tx.tick detect = tx) ∧
  ∀ (tx : Transmitter) (detect : Level) (d : Drive) (g : Segment), tx.drive = some d → d.segments[d.position]? = some g →
    ∃ d', (tx.tick detect).drive = some d' ∧
      (d.driven + 1 < g.ticks → d' = { d with driven := d.driven + 1 }) ∧
      (g.ticks ≤ d.driven + 1 → d' = { d with position := d.position + 1, driven := 0 }) ∧
      (tx.tick detect).disagree = (if g.level = detect then 0 else tx.disagree + 1) ∧
      ∀ g', d'.segments[d'.position]? = some g' → ∀ k < 8,
        (tx.tick detect).pin.getLsbD k = (decide (g'.level = .mark) &&
          (decide (d.carrierPeriod = 0) || decide ((8 * d'.driven + k) % d.carrierPeriod < d.carrierOn)))

/-- MILLISECOND_TICK, R2, R3: at the thousandth line tick MS increases, wrapping, and every running schedule timer is
lowered by one; nothing else changes. Before that the command changes nothing (the model's choice, log 5). -/
def Obligations.MillisecondTickLowersTimers : Prop :=
  (∀ s : State, 1000 ≤ s.tickCount → ∃ t, exec .millisecondTick s = .next t ∧
    (∀ i, t.ticket i = s.ticket i ∧ t.job i = (s.job i).map fun j => { j with
      deadlineTimer := j.deadlineTimer.map (· - 1), leaseTimer := j.leaseTimer.map (· - 1),
      backoffTimer := j.backoffTimer.map (· - 1) }) ∧
    t = { s with
      tickCount := s.tickCount - 1000, ms := s.ms + 1, jobs := t.jobs
      la := { s.la with repeatTimer := s.la.repeatTimer.map (· - 1) }
      rx := { s.rx with holdTimer := s.rx.holdTimer.map (· - 1) } }) ∧
  ∀ s : State, s.tickCount < 1000 → exec .millisecondTick s = .next s

/-! ### The receiver -/

/-- The commands of the receiver: the turns of DETECT and what it finds of its own. -/
def Claims.receiverCommands : List Instr :=
  [.detectMark, .detectSpace, .markTooLong, .leaderSpaceTooLong, .endGapReached, .closingGapReached, .holdWindowExpiry]

/-- R106, R119, R125: what the receiver's commands leave alone. They change the receiver and, by the events they hand
on, the delivery sequences, the rings with the frame memory, and the attention lines; DETECT_MARK alone changes the guard
(R52). The decoder's end of a frame and the hold window alone reach the repeat tracker (R113, R119). -/
def Obligations.ReceiverLeavesTheRest : Prop :=
  ∀ c ∈ Claims.receiverCommands, ∀ s t : State, exec c s = .next t →
    t.tickCount = s.tickCount ∧ t.ms = s.ms ∧ t.stn = s.stn ∧ t.profiles = s.profiles ∧ t.jobs = s.jobs ∧ t.tx = s.tx ∧
    t.entries = s.entries ∧ t.pending = s.pending ∧ t.la = { s.la with guard := t.la.guard } ∧
    (c ≠ .detectMark → t.la.guard = s.la.guard) ∧
    (c ≠ .endGapReached → c ≠ .holdWindowExpiry → t.rx.tracker = s.rx.tracker ∧ t.rx.holdTimer = s.rx.holdTimer) ∧
    (∀ p, t.port p = { s.port p with attn := (t.port p).attn }) ∧
    ∀ p, t.ring p = (s.ring p).map fun r =>
      { r with head := ((t.ring p).getD r).head, count := ((t.ring p).getD r).count,
               pendingMissed := ((t.ring p).getD r).pendingMissed }

/-- A profile of the listening set that accepts a leader mark of d ticks (R12, R111). -/
def Claims.acceptsLeader (s : State) (d : Nat) (q : ProfileId) : Prop :=
  s.listening q = true ∧ ∃ pr, s.profile q = some pr ∧
    3 * (pr.leaderMark * pr.cellUs) ≤ 4 * d ∧ 4 * d ≤ 5 * (pr.leaderMark * pr.cellUs)

/-- DETECT_MARK and DETECT_SPACE outside a body, R107, R110, R111, R113. A mark makes the line active: the quiet measure
and the guard are zero. In IDLE it begins LEADER, or is noise with an empty listening set; in TAIL and ECHO it leaves the
decoder as it is. A space in LEADER judges the leader mark: the candidates are the listening profiles that accept it, and
with none the activity is noise. A turn to the level the line already has is none (the model's choice, log 5). -/
def Obligations.TurnsOutsideBody : Prop :=
  (∀ s : State, s.rx.level = .space →
    let u : State := { s with
      rx := { s.rx with level := .mark, quiet := 0, markTicks := 0 }
      la := { s.la with guard := s.la.guard.map fun g => { g with count := 0 } } }
    (s.rx.decoder = .idle → (∀ q, s.listening q = false) →
      exec .detectMark s = .next { u with rx := { u.rx with decoder := .tail none } }) ∧
    (s.rx.decoder = .idle → (∃ q, s.listening q = true) →
      exec .detectMark s = .next { u with rx := { u.rx with decoder := .leaderMark } }) ∧
    (s.rx.decoder = .echo → exec .detectMark s = .next u) ∧
    ∀ own, s.rx.decoder = .tail own → exec .detectMark s = .next u) ∧
  (∀ s : State, s.rx.level = .mark →
    let u : State := { s with rx := { s.rx with level := .space } }
    (s.rx.decoder = .leaderMark → (∀ q, ¬Claims.acceptsLeader s s.rx.markTicks q) →
      exec .detectSpace s = .next { u with rx := { u.rx with decoder := .tail none } }) ∧
    (s.rx.decoder = .leaderMark → (∃ q, Claims.acceptsLeader s s.rx.markTicks q) →
      ∃ qs longest, exec .detectSpace s = .next { u with rx := { u.rx with decoder := .leaderSpace qs longest } } ∧
        (∀ q, q ∈ qs ↔ Claims.acceptsLeader s s.rx.markTicks q) ∧
        (∀ q ∈ qs, ∀ pr, s.profile q = some pr → pr.spaceNominal ≤ longest) ∧
        ∃ q ∈ qs, ∃ pr, s.profile q = some pr ∧ pr.spaceNominal = longest) ∧
    (s.rx.decoder = .echo → exec .detectSpace s = .next u) ∧
    ∀ own, s.rx.decoder = .tail own → exec .detectSpace s = .next u) ∧
  ∀ s : State, (s.rx.level = .mark → exec .detectMark s = .next s) ∧ (s.rx.level = .space → exec .detectSpace s = .next s)

/-- Candidate q accepts a leader space of d ticks for a shape (R112): for FRAME at leader_space cells, or under SPLIT at
half a cell more; for MARKER at repeat_space cells where it does not accept it for FRAME. -/
def Claims.acceptsSpace (s : State) (qs : List ProfileId) (d : Nat) (q : ProfileId) (shape : Shape) : Prop :=
  q ∈ qs ∧ s.listening q = true ∧ ∃ pr, s.profile q = some pr ∧
    let frame := (3 * (pr.leaderSpace * pr.cellUs) ≤ 4 * d ∧ 4 * d ≤ 5 * (pr.leaderSpace * pr.cellUs)) ∨
      (pr.coding = .split ∧ 3 * ((2 * pr.leaderSpace + 1) * pr.cellUs) ≤ 8 * d ∧
        8 * d ≤ 5 * ((2 * pr.leaderSpace + 1) * pr.cellUs))
    match shape with
    | .frame => frame
    | .marker => ¬frame ∧ 3 * (pr.repeatSpace * pr.cellUs) ≤ 4 * d ∧ 4 * d ≤ 5 * (pr.repeatSpace * pr.cellUs)

/-- DETECT_MARK in LEADER, R112, R114, R117: the lowest-numbered candidate that accepts the leader space for either shape
wins, and the decoder enters BITS with it, its shape and no bits; with none the activity is noise. For a frame N is known
at once under FIXED and not yet under COUNTED, and under SPLIT the half stream begins with one space half when the space
is accepted for leader_space + half a cell and either not for leader_space or nearer to the former, an exact middle
counting as leader_space; in every other case it begins empty. Half cells of an odd cell_us are exact (log 13). -/
def Obligations.LowestAcceptingCandidateWins : Prop :=
  ∀ (s : State) (qs : List ProfileId) (longest : Nat), s.rx.level = .space → s.rx.decoder = .leaderSpace qs longest →
    let u : State := { s with
      rx := { s.rx with level := .mark, quiet := 0, markTicks := 0 }
      la := { s.la with guard := s.la.guard.map fun g => { g with count := 0 } } }
    ((∀ q shape, ¬Claims.acceptsSpace s qs s.rx.quiet q shape) →
      exec .detectMark s = .next { u with rx := { u.rx with decoder := .tail none } }) ∧
    ∀ q shape, Claims.acceptsSpace s qs s.rx.quiet q shape →
      (∀ q' < q, ∀ shape', ¬Claims.acceptsSpace s qs s.rx.quiet q' shape') →
      ∃ d : Decoding, exec .detectMark s = .next { u with rx := { u.rx with decoder := .bits d } } ∧
        d.winner = q ∧ d.shape = shape ∧ d.bits = [] ∧
        ∀ pr, s.profile q = some pr →
          let cell := pr.cellUs
          let quiet := s.rx.quiet
          let whole := 3 * (pr.leaderSpace * cell) ≤ 4 * quiet ∧ 4 * quiet ≤ 5 * (pr.leaderSpace * cell)
          let joined := 3 * ((2 * pr.leaderSpace + 1) * cell) ≤ 8 * quiet ∧ 8 * quiet ≤ 5 * ((2 * pr.leaderSpace + 1) * cell)
          let nearer := (4 * pr.leaderSpace + 1) * cell < 4 * quiet
          d = pr.startDecoding q shape quiet ∧
          (shape = .frame →
            (pr.lengthMode = .fixed → d.expected = some (8 + 8 * pr.fixedLen + (if pr.check = .noCheck then 0 else 8))) ∧
            (pr.lengthMode = .counted → d.expected = none) ∧
            (pr.coding = .split → joined → ¬whole ∨ nearer → d.halves = [.space]) ∧
            (pr.coding ≠ .split ∨ ¬joined ∨ (whole ∧ ¬nearer) → d.halves = []))

/-- MARK_TOO_LONG, LEADER_SPACE_TOO_LONG and CLOSING_GAP_REACHED, R108, R111, R112, R113, R119. A mark that passes 5/4 of
the longest that could be accepted is noise in LEADER and a VIOLATION of the winner in BITS; a leader space that passes
5/4 of the longest is noise; and TAIL ends when the quiet measure reaches the closing gap: the winner's end gap, or the
noise gap. Short of the bound each changes nothing (the model's choice, log 5). -/
def Obligations.LengthBoundsJudgeEarly : Prop :=
  (∀ s : State, s.rx.level = .mark → s.rx.decoder = .leaderMark → 0 < s.rx.markTicks →
    ((∀ q pr, s.listening q = true → s.profile q = some pr → 5 * (pr.leaderMark * pr.cellUs) < 4 * s.rx.markTicks) →
      exec .markTooLong s = .next { s with rx := { s.rx with decoder := .tail none } }) ∧
    ((∃ q pr, s.listening q = true ∧ s.profile q = some pr ∧ 4 * s.rx.markTicks ≤ 5 * (pr.leaderMark * pr.cellUs)) →
      exec .markTooLong s = .next s)) ∧
  (∀ (s : State) (d : Decoding) (pr : Profile), s.rx.level = .mark → s.rx.decoder = .bits d →
    s.profile d.winner = some pr →
    let cells := if d.shape = .frame ∧ pr.coding = .pwidth then 2 else 1
    (5 * (cells * pr.cellUs) < 4 * s.rx.markTicks → exec .markTooLong s =
      .next (State.deliver { s with rx := { s.rx with decoder := .tail (some (d.winner, pr.endGap * pr.cellUs)) } }
        (.error d.winner .violation))) ∧
    (4 * s.rx.markTicks ≤ 5 * (cells * pr.cellUs) → exec .markTooLong s = .next s)) ∧
  (∀ (s : State) (qs : List ProfileId) (longest : Nat), s.rx.level = .space → s.rx.decoder = .leaderSpace qs longest →
    (5 * longest < 8 * s.rx.quiet →
      exec .leaderSpaceTooLong s = .next { s with rx := { s.rx with decoder := .tail none } }) ∧
    (8 * s.rx.quiet ≤ 5 * longest → exec .leaderSpaceTooLong s = .next s)) ∧
  (∀ (s : State) (q : ProfileId) (gap : Nat), s.rx.decoder = .tail (some (q, gap)) →
    exec .closingGapReached s =
      .next (if gap ≤ s.rx.quiet then { s with rx := { s.rx with decoder := .idle } } else s)) ∧
  ∀ s : State, s.rx.decoder = .tail none →
    ((∀ q, s.listening q = false) → exec .closingGapReached s =
      .next (if 4000 ≤ s.rx.quiet then { s with rx := { s.rx with decoder := .idle } } else s)) ∧
    ((∃ q, s.listening q = true) →
      ((∀ q pr, s.listening q = true → s.profile q = some pr → pr.endGap * pr.cellUs ≤ s.rx.quiet) →
        exec .closingGapReached s = .next { s with rx := { s.rx with decoder := .idle } }) ∧
      ((∃ q pr, s.listening q = true ∧ s.profile q = some pr ∧ s.rx.quiet < pr.endGap * pr.cellUs) →
        exec .closingGapReached s = .next s))

/-- DETECT_MARK and DETECT_SPACE in BITS, R115 to R117, R119, R120. The mark or the space that has ended is judged for the
winner: the decode goes on, or it gives its ERROR event and waits out the winner's end gap in TAIL. A marker takes one
mark of one cell and no later one. Under SPLIT a mark or a space of half a cell is one half, one of a cell is two, and any
other is a VIOLATION; the halves join the half stream, where mark then space is bit 1, space then mark bit 0, and two
equal halves, or more than 2N halves, a VIOLATION. Half cells of an odd cell_us are exact (log 13, DEDUCED). -/
def Obligations.TurnsInsideBody : Prop :=
  (∀ (s : State) (d : Decoding) (pr : Profile), s.rx.decoder = .bits d → s.profile d.winner = some pr →
    let marked : State := { s with
      rx := { s.rx with level := .mark, quiet := 0, markTicks := 0 }
      la := { s.la with guard := s.la.guard.map fun g => { g with count := 0 } } }
    let spaced : State := { s with rx := { s.rx with level := .space } }
    let judged (u : State) (j : Judgement) : State :=
      match j with
      | .going d' => { u with rx := { u.rx with decoder := .bits d' } }
      | .failed k => State.deliver
          { u with rx := { u.rx with decoder := .tail (some (d.winner, pr.endGap * pr.cellUs)) } } (.error d.winner k)
    (s.rx.level = .space → exec .detectMark s = .next (judged marked (d.judgeSpace pr s.rx.quiet))) ∧
    (s.rx.level = .mark → exec .detectSpace s = .next (judged spaced (d.judgeMark pr s.rx.markTicks)))) ∧
  ∀ (d : Decoding) (pr : Profile) (ticks : Nat),
    let one := 3 * pr.cellUs ≤ 4 * ticks ∧ 4 * ticks ≤ 5 * pr.cellUs
    let half := 3 * pr.cellUs ≤ 8 * ticks ∧ 8 * ticks ≤ 5 * pr.cellUs
    let both (level : Level) : Judgement :=
      match d.pushHalf pr level with
      | .going d' => d'.pushHalf pr level
      | .failed k => .failed k
    (d.shape = .marker →
      (one → d.judgeMark pr ticks = .going d) ∧ (¬one → d.judgeMark pr ticks = .failed .violation) ∧
      d.judgeSpace pr ticks = .failed .violation) ∧
    (d.shape = .frame → pr.coding = .split →
      (half → d.judgeMark pr ticks = d.pushHalf pr .mark) ∧
      (one → ¬half → d.judgeMark pr ticks = both .mark) ∧
      (¬half → ¬one → d.judgeMark pr ticks = .failed .violation) ∧
      (d.closable pr = true → d.judgeSpace pr ticks = .failed .violation) ∧
      (d.closable pr = false → half → d.judgeSpace pr ticks = d.pushHalf pr .space) ∧
      (d.closable pr = false → one → ¬half → d.judgeSpace pr ticks = both .space) ∧
      (d.closable pr = false → ¬half → ¬one → d.judgeSpace pr ticks = .failed .violation) ∧
      (d.closable pr = true ↔ ∃ n, d.expected = some n ∧
        (d.halves.length = 2 * n ∨ (d.halves.length + 1 = 2 * n ∧ d.halves.getLast? = some .mark)))) ∧
    ∀ (level : Level) (earlier : List Level) (first : Level),
      let longer : Decoding := { d with halves := d.halves ++ [level] }
      ((∃ n, d.expected = some n ∧ 2 * n ≤ d.halves.length) → d.pushHalf pr level = .failed .violation) ∧
      ((∀ n, d.expected = some n → d.halves.length < 2 * n) →
        (d.halves.length % 2 = 0 → d.pushHalf pr level = .going longer) ∧
        (d.halves.length % 2 = 1 → d.halves = earlier ++ [first] →
          (level = first → d.pushHalf pr level = .failed .violation) ∧
          (level ≠ first → d.pushHalf pr level = longer.pushBit pr (decide (first = .mark)))))

/-- DETECT_MARK and DETECT_SPACE in a FRAME body, R115, R116, for the pulse codings. Under PDIST a mark of one cell goes
on, a space of one cell is bit 0 and one of three cells bit 1; under PWIDTH a mark of one cell is bit 0, one of two cells
bit 1, and a space of one cell goes on; any other length is a VIOLATION. Under COUNTED a count of 7 or more is a LENGTH
error at the twelfth bit (R114). A mark after the frame's last bit is a VIOLATION (R116). -/
def Obligations.PulseBodyJudged : Prop :=
  ∀ (d : Decoding) (pr : Profile) (ticks : Nat), d.shape = .frame →
    let one := 3 * pr.cellUs ≤ 4 * ticks ∧ 4 * ticks ≤ 5 * pr.cellUs
    let two := 3 * (2 * pr.cellUs) ≤ 4 * ticks ∧ 4 * ticks ≤ 5 * (2 * pr.cellUs)
    let three := 3 * (3 * pr.cellUs) ≤ 4 * ticks ∧ 4 * ticks ≤ 5 * (3 * pr.cellUs)
    let whole := d.expected = some d.bits.length
    (pr.coding = .pdist →
      (one → d.judgeMark pr ticks = .going d) ∧ (¬one → d.judgeMark pr ticks = .failed .violation) ∧
      (whole → d.judgeSpace pr ticks = .failed .violation) ∧
      (¬whole → one → d.judgeSpace pr ticks = d.pushBit pr false) ∧
      (¬whole → three → 0 < ticks → d.judgeSpace pr ticks = d.pushBit pr true) ∧
      (¬whole → ¬one → ¬three → d.judgeSpace pr ticks = .failed .violation)) ∧
    (pr.coding = .pwidth →
      (one → d.judgeMark pr ticks = d.pushBit pr false) ∧
      (two → 0 < ticks → d.judgeMark pr ticks = d.pushBit pr true) ∧
      (¬one → ¬two → d.judgeMark pr ticks = .failed .violation) ∧
      (whole → d.judgeSpace pr ticks = .failed .violation) ∧
      (¬whole → one → d.judgeSpace pr ticks = .going d) ∧ (¬whole → ¬one → d.judgeSpace pr ticks = .failed .violation)) ∧
    ∀ bit,
      (pr.lengthMode = .fixed ∨ d.bits.length ≠ 11 → d.pushBit pr bit = .going { d with bits := d.bits ++ [bit] }) ∧
      (pr.lengthMode = .counted → d.bits.length = 11 →
        let count := bitsNumber (d.bits.drop 8 ++ [bit])
        (7 ≤ count → d.pushBit pr bit = .failed .length) ∧
        (count < 7 → d.pushBit pr bit = .going { d with
          bits := d.bits ++ [bit], expected := some (12 + 8 * count + (if pr.check = .noCheck then 0 else 8)) }))

/-- END_GAP_REACHED, R118 to R120: at the winner's end gap a marker is handed to the repeat tracker; a frame whose bits
are complete is handed to it when its check holds and is a CHECK error when it does not; any other frame is TRUNCATED. In
each case the decoder is IDLE. Before the end gap nothing changes (the model's choice, log 5). -/
def Obligations.EndGapClosesFrame : Prop :=
  ∀ (s : State) (d : Decoding) (pr : Profile), s.rx.decoder = .bits d → s.profile d.winner = some pr →
    s.rx.level = .space →
    let u : State := { s with rx := { s.rx with decoder := .idle } }
    let fields := pr.fieldsOf d.closedBits
    (s.rx.quiet < pr.endGap * pr.cellUs → exec .endGapReached s = .next s) ∧
    (pr.endGap * pr.cellUs ≤ s.rx.quiet →
      (d.shape = .marker → exec .endGapReached s = .next (u.trackMarker d.winner)) ∧
      (d.shape = .frame → d.closable pr = false →
        exec .endGapReached s = .next (u.deliver (.error d.winner .truncated))) ∧
      (d.shape = .frame → d.closable pr = true → pr.check ≠ .noCheck → fields.2.2 ≠ pr.checkByte fields.1 fields.2.1 →
        exec .endGapReached s = .next (u.deliver (.error d.winner .check))) ∧
      (d.shape = .frame → d.closable pr = true →
        (pr.check = .noCheck ∨ fields.2.2 = pr.checkByte fields.1 fields.2.1) →
        exec .endGapReached s =
          .next (u.trackFrame { profile := d.winner, address := fields.1, data := fields.2.1 })))

/-- The repeat tracker, R122 to R124: a good frame equal to the held one is a REPEAT; a different one ends the hold with a
RELEASE and then begins one with NEW; with no hold it begins one with NEW. A marker of the held frame's profile is a
REPEAT, and a stray marker is dropped. HOLD_WINDOW_EXPIRY ends the hold with a RELEASE. Before it is due it changes
nothing (the model's choice, log 5). That the window is 0 where the profile is undefined, which no run reaches, is the
model's choice too (log 18). -/
def Obligations.TrackerFollowsHolds : Prop :=
  ∀ s : State,
    let window (q : ProfileId) : Timer := some (((s.profile q).map (·.holdWindowMs)).getD 0)
    let new (u : State) (f : Frame) : State := State.deliver { u with rx := { u.rx with
      tracker := some { frame := f, repeats := 0, startTime := s.ms, lastTime := s.ms }
      holdTimer := window f.profile } } (.new f)
    (∀ f, s.rx.tracker = none → s.trackFrame f = new s f) ∧
    (∀ q, s.rx.tracker = none → s.trackMarker q = s) ∧
    (s.rx.tracker = none → exec .holdWindowExpiry s = .next s) ∧
    ∀ h : Hold, s.rx.tracker = some h →
      let again := State.deliver { s with rx := { s.rx with
        tracker := some { h with repeats := min (h.repeats + 1) 65535, lastTime := s.ms }
        holdTimer := window h.frame.profile } } (.repeated h.frame (min (h.repeats + 1) 65535))
      let released := State.deliver { s with rx := { s.rx with tracker := none, holdTimer := none } }
        (.release h.frame h.repeats (min (h.lastTime - h.startTime).toNat 65535))
      s.trackFrame h.frame = again ∧
      (∀ f, f ≠ h.frame → s.trackFrame f = new released f) ∧
      (∀ q, s.trackMarker q = if q = h.frame.profile then again else s) ∧
      exec .holdWindowExpiry s = .next (if s.rx.holdTimer = some 0 then released else s)

/-! ### Delivery and the rings -/

/-- R135 to R137: an entry matches an event when it is enabled and has the event's profile and, unless the event is an
ERROR, the event's address agrees with its value in every bit where its mask holds a 1; the entries of a LOCAL event's
source port are not considered. -/
def Obligations.EntryMatchesByProfileAndMask : Prop :=
  ∀ (x : Entry) (f : Frame),
    let agrees := ∀ i < 8, x.mask.getLsbD i = true → f.address.getLsbD i = x.value.getLsbD i
    (x.selects (.new f) = true ↔ x.enabled = true ∧ x.profile = f.profile ∧ agrees) ∧
    (∀ n, x.selects (.repeated f n) = true ↔ x.enabled = true ∧ x.profile = f.profile ∧ agrees) ∧
    (∀ n ms, x.selects (.release f n ms) = true ↔ x.enabled = true ∧ x.profile = f.profile ∧ agrees) ∧
    (∀ q k, x.selects (.error q k) = true ↔ x.enabled = true ∧ x.profile = q) ∧
    ∀ source, x.selects (.sentLocal f source) = true ↔
      x.enabled = true ∧ x.profile = f.profile ∧ agrees ∧ x.owner ≠ source

/-- R134, R138, R140, R141: an event is offered once to each port some matching entry of which wants its kind. The port's
sequence counts the offer, and its ring takes the record, which carries the sequence before that count and the time: the
descriptor and every byte of the ring's slots become what the offer of that record makes of them. A port that wants
nothing of the event keeps its sequence, its ring and its lines. Nothing else changes, and no byte of frame memory outside
the rings offered to. -/
def Obligations.EventOfferedOncePerPort : Prop :=
  ∀ (s : State) (e : Event), s.ringsLawful →
    let t := s.deliver e
    let wants (p : Port) : Prop := ∃ i x, s.entry i = some x ∧ x.owner = p ∧ x.selects e = true ∧
      x.kinds.getLsbD e.kind.code = true
    (∀ p, wants p → t.seqs[p] = s.seqs[p] + 1 ∧
      (t.ring p = (s.ring p).map fun r => (r.offer e s.seqs[p] (s.ms.truncate 16) s.mem).1) ∧
      ∀ r, s.ring p = some r → Memory.wf s.mem = true → ∀ a, 16 * r.base ≤ a → a < 16 * (r.base + r.depth) →
        Memory.read a t.mem = Memory.read a (r.offer e s.seqs[p] (s.ms.truncate 16) s.mem).2) ∧
    (∀ p, ¬wants p → t.seqs[p] = s.seqs[p] ∧ t.ring p = s.ring p ∧ t.port p = s.port p) ∧
    (∀ p, t.port p = { s.port p with attn := (t.port p).attn }) ∧
    (∀ a, (∀ p r, wants p → s.ring p = some r → ¬(16 * r.base ≤ a ∧ a < 16 * (r.base + r.depth))) →
      Memory.read a t.mem = Memory.read a s.mem) ∧
    t = { s with seqs := t.seqs, mem := t.mem, rings := t.rings, ports := t.ports }

/-- R145, R150 to R152: what an offer does to a lawful ring. A ring that is not full takes the record at position count
with its pending_missed as missed. A full KEEP_OLD ring counts a drop. A full KEEP_NEW ring gives its oldest record's
place to the new one and raises the missed of the record that is then the oldest by 1 and the removed record's own,
staying at 255. No other byte of frame memory changes. -/
def Obligations.RingTakesOfferByPolicy : Prop :=
  ∀ (r : Ring) (e : Event) (seq time : BitVec 16) (m : List Host.Cell), r.lawful → Memory.wf m = true →
    let r' := (r.offer e seq time m).1
    let m' := (r.offer e seq time m).2
    let slot (i : Nat) : Nat := r.base + (r.head + i) % r.depth
    let oldMissed := (Memory.read (16 * slot 0 + 11) m).toNat
    (r.count < r.depth →
      r' = { r with count := r.count + 1, pendingMissed := 0 } ∧
      Memory.readSlot (slot r.count) m' = e.record seq r.pendingMissed time ∧
      ∀ a, ¬(16 * slot r.count ≤ a ∧ a < 16 * slot r.count + 16) → Memory.read a m' = Memory.read a m) ∧
    (r.count = r.depth → r.policy = .keepOld →
      r' = { r with pendingMissed := min (r.pendingMissed + 1) 255 } ∧ m' = m) ∧
    (r.count = r.depth → r.policy = .keepNew →
      r' = { r with head := (r.head + 1) % r.depth } ∧
      (r.depth = 1 → Memory.readSlot (slot 0) m' = e.record seq (min (1 + oldMissed) 255) time) ∧
      (2 ≤ r.depth → Memory.readSlot (slot 0) m' = e.record seq 0 time ∧
        (Memory.read (16 * slot 1 + 11) m').toNat =
          min ((Memory.read (16 * slot 1 + 11) m).toNat + (1 + oldMissed)) 255) ∧
      ∀ a, ¬(16 * slot 0 ≤ a ∧ a < 16 * slot 0 + 16) → a ≠ 16 * slot 1 + 11 →
        Memory.read a m' = Memory.read a m)

/-! ### The arbiter, the transmitter and the job table -/

/-- R69: a transmission is a MARKER when the job's kind is BURST or HELD, its profile's repeat_form is MARKER, its sent is
1 or more and its resume_full is no, all from the record as it stands before the frame start; otherwise it is a FULL
frame. So a job's first transmission, every transmission of a ONESHOT and the transmission of a resumption are full
frames, and the frame start clears resume_full. -/
def Obligations.FormChosenAtFrameStart : Prop :=
  ∀ (s : State) (i : SlotId) (j : Job) (pr : Profile), s.job i = some j → s.profile j.profile = some pr →
    ∃ d j', (s.frameStart i).tx.drive = some d ∧ (s.frameStart i).job i = some j' ∧
      (d.form = .marker ↔
        (j.kind = .burst ∨ j.kind = .held) ∧ pr.repeatForm = .marker ∧ 1 ≤ j.sent ∧ j.resumeFull = false) ∧
      (d.form = .full ↔
        ¬((j.kind = .burst ∨ j.kind = .held) ∧ pr.repeatForm = .marker ∧ 1 ≤ j.sent ∧ j.resumeFull = false)) ∧
      d.segments = (if d.form = .marker then pr.markerSegments else pr.frameSegments j.address j.data) ∧
      j'.resumeFull = false

/-- A frame start of the job of slot i, R10, R19, R25, R53, R57, R68, R72, R109: the job is SENDING and has started, and
its first frame start drops its deadline; it is the holder, its guard stops and its repeat period starts; TX drives the
first tick of the segment list, and the decoder enters ECHO. Nothing else changes. -/
def Obligations.FrameStartTakesTheLine : Prop :=
  ∀ (s : State) (i : SlotId) (j : Job) (pr : Profile), s.job i = some j → s.profile j.profile = some pr →
    ∃ d jobs pin, s.frameStart i = { s with
        jobs := jobs
        la := { s.la with
          position := .holder i, guard := none, repeatTimer := some pr.repeatPeriodMs, periodDone := false }
        tx := { drive := some d, disagree := 0, pin := pin }
        rx := { s.rx with decoder := .echo } } ∧
      d.slot = i ∧ d.position = 0 ∧ d.driven = 0 ∧ d.cellUs = pr.cellUs ∧
      d.carrierPeriod = (if pr.carrierKhz = 0 then 0 else (2 * 8000 + pr.carrierKhz) / (2 * pr.carrierKhz)) ∧
      d.carrierOn = (2 * (d.carrierPeriod * pr.duty) + 100) / 200 ∧
      (d.segments.head?.map (·.level) = some .mark ∧
        ∀ k < 8, pin.getLsbD k = (decide (d.carrierPeriod = 0) || decide (k % d.carrierPeriod < d.carrierOn))) ∧
      jobs[i] = { ticket := s.ticket i, job := some { j with
        state := .sending, started := true, resumeFull := false
        deadlineMs := if j.started then j.deadlineMs else none
        deadlineTimer := if j.started then j.deadlineTimer else none } } ∧
      ∀ k, k ≠ i → jobs[k] = s.jobs[k]

/-- GUARD_COMPLETE and REPEAT_PERIOD_EXPIRY, R52, R53, R55, R57. A complete guard starts the candidate's transmission, and
that of a holder in GAP whose period is done; a holder in GAP whose period runs waits. When the period expires the timer
stays expired; a holder in GAP whose guard is complete starts its next transmission, and otherwise period_done is yes. A
guard short of its target, and a period that still runs or is stopped, do nothing (the model's choice, log 5). -/
def Obligations.GuardAndPeriodStartFrames : Prop :=
  (∀ (s : State) (g : GuardCount), s.la.guard = some g → g.target ≤ g.count →
    (∀ i o, s.la.position = .candidate i o → exec .guardComplete s = .next (s.frameStart i)) ∧
    ∀ i j, s.la.position = .holder i → s.job i = some j → j.state = .gap →
      exec .guardComplete s = .next (if s.la.periodDone then s.frameStart i else s)) ∧
  (∀ (s : State) (g : GuardCount), s.la.guard = some g → g.count < g.target → exec .guardComplete s = .next s) ∧
  (∀ s : State, s.la.guard = none → exec .guardComplete s = .next s) ∧
  (∀ (s : State) (i : SlotId) (j : Job), s.la.repeatTimer = some 0 → s.la.position = .holder i → s.job i = some j →
    let expired : State := { s with la := { s.la with repeatTimer := none, periodDone := true } }
    (∀ g, j.state = .gap → s.la.guard = some g → g.target ≤ g.count →
      exec .repeatPeriodExpiry s = .next (expired.frameStart i)) ∧
    (∀ g, j.state = .gap → s.la.guard = some g → g.count < g.target →
      exec .repeatPeriodExpiry s = .next expired) ∧
    (j.state = .sending → exec .repeatPeriodExpiry s = .next expired)) ∧
  ∀ s : State, s.la.repeatTimer ≠ some 0 → exec .repeatPeriodExpiry s = .next s

/-- The state once TX has stopped, R73, R78, R110: the sequencer is IDLE and DRIVE is space; the decoder leaves ECHO for
IDLE on a space, and for TAIL with the noise gap on a mark. -/
def Claims.driveStopped (s : State) : State :=
  { s with
    tx := { drive := none, disagree := 0, pin := 0 }
    rx := { s.rx with decoder := if s.rx.level = .mark then .tail none else .idle } }

/-- DONE, R73 to R76: TX stops, a completed full frame gives its LOCAL event, and the job table counts the transmission:
sent rises, staying at 255 for a HELD job, and attempts is 0. A pending cancel ends the job CANCELLED, or SENT when that
transmission was its last; a pending end ends it with its outcome; a ONESHOT and a BURST at its count end SENT; any other
job goes on to its gap. An orphan is not counted and ends without a notice. While ticks of the segment list remain, and
while TX is IDLE, nothing changes (the model's choice, log 5). -/
def Obligations.DoneEndsJobOrOpensGap : Prop :=
  (∀ (s : State) (d : Drive) (j : Job), s.tx.drive = some d → d.segments.length ≤ d.position → s.job d.slot = some j →
    let stopped := Claims.driveStopped s
    let heard := if d.form = .full then
      stopped.deliver (.sentLocal { profile := j.profile, address := j.address, data := j.data } j.owner) else stopped
    let sent := if j.kind = .held then min (j.sent + 1) 255 else j.sent + 1
    let counted := heard.modifyJob d.slot fun x => { x with sent := sent, attempts := 0 }
    let last := j.kind = .oneshot ∨ (j.kind = .burst ∧ j.burstCount = some sent)
    (j.orphan = true → exec .driveDone s = .next (heard.endSilently d.slot)) ∧
    (j.orphan = false → j.cancelPending = true → last → exec .driveDone s = .next (counted.endJob d.slot .sent)) ∧
    (j.orphan = false → j.cancelPending = true → ¬last →
      exec .driveDone s = .next (counted.endJob d.slot .cancelled)) ∧
    (j.orphan = false → j.cancelPending = false → j.endPending = some .released →
      exec .driveDone s = .next (counted.endJob d.slot .released)) ∧
    (j.orphan = false → j.cancelPending = false → j.endPending = some .lapsed →
      exec .driveDone s = .next (counted.endJob d.slot .lapsed)) ∧
    (j.orphan = false → j.cancelPending = false → j.endPending = none → last →
      exec .driveDone s = .next (counted.endJob d.slot .sent)) ∧
    (j.orphan = false → j.cancelPending = false → j.endPending = none → ¬last →
      exec .driveDone s = .next (counted.enterGap d.slot))) ∧
  (∀ (s : State) (d : Drive), s.tx.drive = some d → d.position < d.segments.length → exec .driveDone s = .next s) ∧
  ∀ s : State, s.tx.drive = none → exec .driveDone s = .next s

/-- COLLISION, R77 to R80: once the disagreement count exceeds half a cell TX stops, and no LOCAL event is given. The job
table counts the collision: attempts and collisions_total rise, the latter to 255. A pending cancel ends the job
CANCELLED, a pending end with its outcome, and attempts at attempt_limit GAVE_UP; any other job leaves the line for the
backoff set with its backoff timer at backoff_base_ms × 2^(k − 1) + 2 × STN, k its attempts and at most 4, and selection
runs. An orphan ends without a notice. A count of half a cell or less,
exact for an odd cell_us (log 13, DEDUCED), or an IDLE sequencer, is no collision (log 5). -/
def Obligations.CollisionEndsJobOrBacksOff : Prop :=
  (∀ (s : State) (d : Drive) (j : Job), s.tx.drive = some d → d.cellUs < 2 * s.tx.disagree → s.job d.slot = some j →
    let stopped := Claims.driveStopped s
    let counted := stopped.modifyJob d.slot fun x => { x with
      attempts := j.attempts + 1, collisionsTotal := min (j.collisionsTotal + 1) 255 }
    (j.orphan = true → exec .collision s = .next (stopped.endSilently d.slot)) ∧
    (j.orphan = false → j.cancelPending = true → exec .collision s = .next (counted.endJob d.slot .cancelled)) ∧
    (j.orphan = false → j.cancelPending = false → j.endPending = some .released →
      exec .collision s = .next (counted.endJob d.slot .released)) ∧
    (j.orphan = false → j.cancelPending = false → j.endPending = some .lapsed →
      exec .collision s = .next (counted.endJob d.slot .lapsed)) ∧
    (j.orphan = false → j.cancelPending = false → j.endPending = none → j.attempts + 1 = j.attemptLimit →
      exec .collision s = .next (counted.endJob d.slot .gaveUp)) ∧
    ∀ pr, j.orphan = false → j.cancelPending = false → j.endPending = none → j.attempts + 1 ≠ j.attemptLimit →
      s.profile j.profile = some pr →
      exec .collision s = .next
        ((({ counted with la := (counted.la.without d.slot).pushBackoff d.slot }).modifyJob d.slot fun x => { x with
          state := .backoff
          backoffTimer := some (pr.backoffBaseMs * 2 ^ (min (j.attempts + 1) 4 - 1) + 2 * s.stn.toNat) }).select)) ∧
  (∀ (s : State) (d : Drive), s.tx.drive = some d → 2 * s.tx.disagree ≤ d.cellUs → exec .collision s = .next s) ∧
  ∀ s : State, s.tx.drive = none → exec .collision s = .next s

/-- The job table's timers, R39 to R41, R81, R95, R97: a backoff that expires brings its job to the head of its class
queue; a deadline that expires ends its job EXPIRED; a lease that expires ends its job LAPSED, at once away from SENDING,
and in SENDING at the end of the frame in flight, unless a release is pending. A timer that has not run out, and a FREE
slot, change nothing (the model's choice, log 5). -/
def Obligations.JobTimersExpire : Prop :=
  (∀ (s : State) (i : SlotId) (j : Job), s.job i = some j →
    (j.state = .backoff → j.backoffTimer = some 0 → exec (.backoffExpiry i) s =
      .next (State.joinHead ({ s with la := s.la.without i }.modifyJob i fun x => { x with backoffTimer := none }) i)) ∧
    (j.backoffTimer ≠ some 0 → exec (.backoffExpiry i) s = .next s) ∧
    (j.deadlineTimer = some 0 → exec (.deadlineExpiry i) s = .next (s.endJob i .expired)) ∧
    (j.deadlineTimer ≠ some 0 → exec (.deadlineExpiry i) s = .next s) ∧
    (j.leaseTimer = some 0 → j.state ≠ .sending → exec (.leaseExpiry i) s = .next (s.endJob i .lapsed)) ∧
    (j.leaseTimer = some 0 → j.state = .sending → exec (.leaseExpiry i) s = .next (s.modifyJob i fun x => { x with
      leaseTimer := none, endPending := if j.endPending = some .released then some .released else some .lapsed })) ∧
    (j.leaseTimer ≠ some 0 → exec (.leaseExpiry i) s = .next s)) ∧
  ∀ (s : State) (i : SlotId), s.job i = none →
    exec (.backoffExpiry i) s = .next s ∧ exec (.deadlineExpiry i) s = .next s ∧ exec (.leaseExpiry i) s = .next s

/-- Selection, R50: with q the highest class whose queue is not empty, the top of the stack becomes the candidate, with
origin STACK, when there is one and q is not above its class or every queue is empty; otherwise the head of queue q does,
with origin QUEUE; with nothing waiting nothing changes. The candidate is STARTING, its guard counts from zero to its
profile's guard, and no period runs. The other places and the other jobs stay as they are. -/
def Obligations.SelectionTakesTheMostUrgent : Prop :=
  ∀ s : State, s.placesLawful → s.la.position = .empty →
    let chosen (i : SlotId) (o : Origin) : Prop := ∀ j pr, s.job i = some j → s.profile j.profile = some pr →
      s.select = ({ s with la := { s.la with
          queues := s.select.la.queues, stack := s.select.la.stack, position := .candidate i o
          guard := some { count := 0, target := pr.guardCells * pr.cellUs }, repeatTimer := none
          periodDone := false } }.modifyJob i fun x => { x with state := .starting }) ∧
      (∀ c : Fin 4, s.select.la.queues[c] = s.la.queues[c].filter (· ≠ i)) ∧
      s.select.la.stack = s.la.stack.filter (· ≠ i)
    (∀ top, s.la.stack.getLast? = some top → (∀ c : Fin 4, s.jobClass top < c → s.la.queues[c] = []) →
      chosen top .stack) ∧
    (∀ (q : Fin 4) head rest, s.la.queues[q] = head :: rest → (∀ c : Fin 4, q < c → s.la.queues[c] = []) →
      (∀ top, s.la.stack.getLast? = some top → s.jobClass top < q) → chosen head .queue) ∧
    (s.la.stack = [] → (∀ c : Fin 4, s.la.queues[c] = []) → s.select = s)

/-- A join and a gap, R38, R54, R56, R59, R62. The job that joins enters the tail, or the head, of its class's queue in QUEUED, and the arbiter
reacts. On an empty position selection runs. A candidate of lower class goes back, to the head of its queue or to the top
of the stack, and selection runs; a holder of lower class in GAP is pushed on the stack, SUSPENDED with resume_full, and
selection runs; any other candidate or holder stays. A holder that enters GAP is preempted in the same way when a job of
a higher class waits in a queue; otherwise its guard starts from zero, and its repeat period runs on. -/
def Obligations.JoinsAndGapsReactToUrgency : Prop :=
  ∀ (s : State) (i : SlotId) (j : Job), s.job i = some j →
    let queued (a : Arbiter) : State := { s with la := a }.modifyJob i fun x => { x with state := .queued }
    let tail := queued { s.la with queues := s.la.queues.set j.cls (s.la.queues[j.cls] ++ [i]) }
    let head := queued { s.la with queues := s.la.queues.set j.cls (i :: s.la.queues[j.cls]) }
    s.joinTail i = tail.reactToJoin j.cls ∧ s.joinHead i = head.reactToJoin j.cls ∧
    (s.la.position = .empty → s.reactToJoin j.cls = s.select) ∧
    (∀ k x o, s.la.position = .candidate k o → s.job k = some x →
      (j.cls ≤ x.cls → s.reactToJoin j.cls = s) ∧
      (x.cls < j.cls → o = .queue → s.reactToJoin j.cls =
        ({ s with la := (s.la.without k).pushHead x.cls k }.modifyJob k fun y => { y with state := .queued }).select) ∧
      (x.cls < j.cls → o = .stack → s.reactToJoin j.cls =
        ({ s with la := { s.la.without k with stack := (s.la.without k).stack ++ [k] } }.modifyJob k
          fun y => { y with state := .suspended }).select)) ∧
    (∀ k x, s.la.position = .holder k → s.job k = some x →
      (x.state = .sending → s.reactToJoin j.cls = s) ∧
      (x.state = .gap → j.cls ≤ x.cls → s.reactToJoin j.cls = s) ∧
      (x.state = .gap → x.cls < j.cls → s.reactToJoin j.cls =
        ({ s with la := { s.la.without k with stack := (s.la.without k).stack ++ [k] } }.modifyJob k
          fun y => { y with state := .suspended, resumeFull := true }).select)) ∧
    ∀ pr, s.profile j.profile = some pr →
      ((∀ c : Fin 4, j.cls < c → s.la.queues[c] = []) → s.enterGap i =
        { s with la := { s.la with guard := some { count := 0, target := pr.guardCells * pr.cellUs } } }.modifyJob i
          fun x => { x with state := .gap }) ∧
      ((∃ c : Fin 4, j.cls < c ∧ s.la.queues[c] ≠ []) → s.enterGap i =
        ({ s with la := { s.la.without i with stack := (s.la.without i).stack ++ [i] } }.modifyJob i
          fun x => { x with state := .suspended, resumeFull := true }).select)

/-- The end of a job, R51, R63, R64, R88, R89, R101, R102: the notice is appended to its owner's queue, and the attention
line follows, when the job is no orphan and its epoch is the owner's; the job leaves its place, the others keeping their
order; its slot is FREE and keeps its ticket; and selection runs if it stood in the line position. Nothing else changes. -/
def Obligations.JobEndWritesNoticeAndFreesSlot : Prop :=
  ∀ (s : State) (i : SlotId) (j : Job) (o : JobOutcome), s.job i = some j →
    let h := s.port j.owner
    let note : Notice := {
      slot := i, ticket := s.ticket i, submitTag := j.submitTag, key := j.key, outcome := o, sent := j.sent
      collisionsTotal := j.collisionsTotal, merges := j.merges, endTime := s.ms.truncate 16 }
    let noted : HostPort := { h with notices := h.notices ++ [note], attn := h.isOpen }
    let told : State :=
      if j.orphan = false ∧ j.epoch = h.epoch then { s with ports := s.ports.set j.owner noted } else s
    let freed : State := { told with
      jobs := told.jobs.set i { ticket := s.ticket i, job := none }, la := s.la.without i }
    (s.la.position.slot = some i → s.endJob i o = freed.select) ∧
    (s.la.position.slot ≠ some i → s.endJob i o = freed) ∧
    (∀ c : Fin 4, (s.la.without i).queues[c] = s.la.queues[c].filter (· ≠ i)) ∧
    (s.la.without i).stack = s.la.stack.filter (· ≠ i) ∧ (s.la.without i).backoff = s.la.backoff.filter (· ≠ i) ∧
    (s.la.position.slot = some i → (s.la.without i).position = .empty ∧ (s.la.without i).guard = none ∧
      (s.la.without i).repeatTimer = none ∧ (s.la.without i).periodDone = false) ∧
    (s.la.position.slot ≠ some i → (s.la.without i).position = s.la.position ∧ (s.la.without i).guard = s.la.guard ∧
      (s.la.without i).repeatTimer = s.la.repeatTimer ∧ (s.la.without i).periodDone = s.la.periodDone)

/-! ### Requests -/

/-- OPEN, R140, R172: on a CLOSED port the epoch rises, wrapping; the session is OPEN, the notice queue empty, the delivery
sequence 0 and the threshold 1; the response carries the new epoch. On an OPEN port the status is ALREADY_OPEN. The
attention line follows its condition (R177). Nothing else changes. -/
def Obligations.OpenStartsSession : Prop :=
  ∀ (s : State) (p : Port) (tag : Byte), s.asks p .openSession tag [] →
    ((s.port p).isOpen = true → exec (.openSession p) s = .next (s.answered p .openSession tag .alreadyOpen [])) ∧
    ((s.port p).isOpen = false → exec (.openSession p) s =
      .next (State.answered { s with
        seqs := s.seqs.set p 0
        ports := s.ports.set p { s.port p with
          epoch := (s.port p).epoch + 1, isOpen := true, notices := [], threshold := 1
          attn := decide (1 ≤ s.ringCount p) } } p .openSession tag .ok [(s.port p).epoch + 1]))

/-- What a decoder state becomes when the listening set is re-evaluated to that of t (R18): a departed candidate can no
longer win, and a frame, a marker or an error tail of a departed winner becomes noise. -/
def Claims.listeningAgain (t : State) : Decoder → Decoder
  | .leaderSpace qs longest => .leaderSpace (qs.filter fun q => t.listening q) longest
  | .bits d => if t.listening d.winner then .bits d else .tail none
  | .tail (some (q, gap)) => if t.listening q then .tail (some (q, gap)) else .tail none
  | .idle => .idle
  | .leaderMark => .leaderMark
  | .tail none => .tail none
  | .echo => .echo

/-- CLOSE, R18, R44, R66, R83, R110, R142, R157, R173, R174: a cut flag of 0 or 1 closes the session, and any other is BAD_VALUE. At
the one step every job of the port that is no orphan leaves its place and its slot is FREE, without a notice, but for one
in SENDING with cut 0, which becomes an orphan with its lease stopped; with cut 1 the drive of that one stops. Selection
then runs once if the line position is empty. The port's entries and its ring are gone, its notices are dropped, ATTNn is
low, and the epoch and the threshold stay. The entries, the rings with their records and the sessions of the other ports
stay; the slots of the closing ring hold no record, and no other byte of frame memory changes. The decoder leaves ECHO
when the drive stops, and the listening set is re-evaluated without the port's entries. The response counts the jobs
ended, whether one was orphaned, and the notices and the records dropped. That the bytes of a slot without a record are 0
(log 4) and that a departed candidate is dropped at once (log 14, DEDUCED) are the model's. -/
def Obligations.CloseTearsDownSession : Prop :=
  ∀ (s : State) (p : Port) (tag cut : Byte), s.asks p .closeSession tag [cut] →
    (1 < cut.toNat → exec (.closeSession p) s = .next (s.answered p .closeSession tag .badValue [])) ∧
    (cut.toNat ≤ 1 →
      let ends (i : SlotId) : Bool :=
        s.jobSatisfies (fun j => j.owner == p && !j.orphan && (cut == 1 || j.state != .sending)) i
      let sends : Prop := ∃ i j, s.job i = some j ∧ j.owner = p ∧ j.orphan = false ∧ j.state = .sending
      let held := s.la.position.slot.any ends
      let outOfEcho : Decoder := if s.rx.level = .mark then .tail none else .idle
      ∃ u t : State, exec (.closeSession p) s = .next t ∧
        t.jobs = (if u.la.position = .empty then u.select else u).jobs ∧
        t.la = (if u.la.position = .empty then u.select else u).la ∧
        u.profiles = s.profiles ∧ (∀ i, u.ticket i = s.ticket i) ∧
        (∀ i, u.job i = if ends i then none else (s.job i).map fun j =>
          if j.owner = p ∧ j.orphan = false then { j with orphan := true, leaseTimer := none } else j) ∧
        (∀ c : Fin 4, u.la.queues[c] = s.la.queues[c].filter fun i => !ends i) ∧
        u.la.stack = s.la.stack.filter (fun i => !ends i) ∧ u.la.backoff = s.la.backoff.filter (fun i => !ends i) ∧
        u.la.position = (if held then .empty else s.la.position) ∧ u.la.guard = (if held then none else s.la.guard) ∧
        u.la.repeatTimer = (if held then none else s.la.repeatTimer) ∧
        u.la.periodDone = (if held then false else s.la.periodDone) ∧
        (∀ e, t.entry e = (s.entry e).filter fun x => x.owner != p) ∧
        t.ring p = none ∧ (∀ q, q ≠ p → t.ring q = s.ring q ∧ t.port q = s.port q) ∧
        t.port p = { s.port p with
          isOpen := false, notices := [], attn := false, txn := .idle, request := none
          response := some { code := RequestKind.code .closeSession, tag := tag, status := .ok, body := [
            BitVec.ofNat 8 (allSlots.countP ends), if cut = 0 ∧ sends then 1 else 0,
            BitVec.ofNat 8 (s.port p).notices.length, BitVec.ofNat 8 (s.ringCount p)] } } ∧
        (cut = 1 → sends → t.tx = { drive := none, disagree := 0, pin := 0 }) ∧
        (¬(cut = 1 ∧ sends) → t.tx = s.tx) ∧
        (cut = 1 → sends → t.rx.decoder = Claims.listeningAgain t outOfEcho) ∧
        (¬(cut = 1 ∧ sends) → t.rx.decoder = Claims.listeningAgain t s.rx.decoder) ∧
        (s.ring p = none → t.mem = s.mem) ∧
        (∀ r, s.ring p = some r → t.mem = r.clear r.count s.mem ∧
          (r.lawful → Memory.wf s.mem = true →
            ∀ i < r.count, Memory.readSlot (r.base + (r.head + i) % r.depth) t.mem = List.replicate 16 0) ∧
          ∀ a, (∀ i < r.count, ¬(16 * (r.base + (r.head + i) % r.depth) ≤ a ∧
              a < 16 * (r.base + (r.head + i) % r.depth) + 16)) → Memory.read a t.mem = Memory.read a s.mem) ∧
        (s.ringsLawful → ∀ q r, q ≠ p → s.ring q = some r → ∀ a, 16 * r.base ≤ a → a < 16 * (r.base + r.depth) →
          Memory.read a t.mem = Memory.read a s.mem) ∧
        t.profiles = s.profiles ∧ t.seqs = s.seqs ∧ t.ms = s.ms ∧ t.stn = s.stn ∧ t.tickCount = s.tickCount ∧
        t.pending = s.pending ∧ t.rx = { s.rx with decoder := t.rx.decoder })

/-- SET_ATTN, R178: a threshold of 1 to 64 replaces the old one, ATTNn takes the level of its condition, and the response
carries the threshold and that level; any other threshold is BAD_VALUE, and nothing changes. -/
def Obligations.SetAttnSetsThreshold : Prop :=
  ∀ (s : State) (p : Port) (tag n : Byte), s.asks p .setAttn tag [n] →
    (n.toNat = 0 ∨ 64 < n.toNat → exec (.setAttn p) s = .next (s.answered p .setAttn tag .badValue [])) ∧
    (1 ≤ n.toNat → n.toNat ≤ 64 →
      let level := (s.port p).isOpen && (!(s.port p).notices.isEmpty || decide (n.toNat ≤ s.ringCount p))
      exec (.setAttn p) s = .next (State.answered { s with
          ports := s.ports.set p { s.port p with threshold := n.toNat, attn := level } }
        p .setAttn tag .ok [n, if level then 1 else 0]))

/-- NOTICE_FETCH, R103, R185: for n of 1 to 4 the oldest n notices, or all there are, leave the queue and are returned
oldest first, behind their number and the number still held; ATTNn follows its condition. Any other n is BAD_VALUE. -/
def Obligations.NoticeFetchRemovesOldest : Prop :=
  ∀ (s : State) (p : Port) (tag n : Byte), s.asks p .noticeFetch tag [n] →
    (n.toNat = 0 ∨ 4 < n.toNat → exec (.noticeFetch p) s = .next (s.answered p .noticeFetch tag .badValue [])) ∧
    (1 ≤ n.toNat → n.toNat ≤ 4 →
      let held := (s.port p).notices
      let level := (s.port p).isOpen &&
        (decide (n.toNat < held.length) || decide ((s.port p).threshold ≤ s.ringCount p))
      exec (.noticeFetch p) s = .next (State.answered { s with
          ports := s.ports.set p { s.port p with notices := held.drop n.toNat, attn := level } } p .noticeFetch tag .ok
        ([BitVec.ofNat 8 (min n.toNat held.length), BitVec.ofNat 8 (held.length - n.toNat)] ++
          (held.take n.toNat).flatMap fun x =>
            [BitVec.ofNat 8 x.slot.val, x.ticket, x.submitTag, x.key, x.outcome.code, BitVec.ofNat 8 x.sent,
              BitVec.ofNat 8 x.collisionsTotal, BitVec.ofNat 8 x.merges, x.endTime.extractLsb' 0 8,
              x.endTime.extractLsb' 8 8])))

/-- HELLO, SUB_LIST and RING_QUERY, R133, R156, R176, R184: each is answered OK and changes nothing else. HELLO reports the
identity 0x0240, the revision 1, STN, the port, its session and epoch and the part's capacities. SUB_LIST reports the
caller's entries, in increasing id. RING_QUERY reports the caller's ring, and where the rings of all four ports lie. -/
def Obligations.ReportsChangeNothing : Prop :=
  ∀ (s : State) (p : Port) (tag : Byte),
    (s.asks p .hello tag [] → exec (.hello p) s = .next (s.answered p .hello tag .ok
      [0x40, 0x02, 1, s.stn.zeroExtend 8, BitVec.ofNat 8 p.val, if (s.port p).isOpen then 1 else 0, (s.port p).epoch,
        4, 24, 4, 4, 16, 128, 64, 8, 3, 30, 4])) ∧
    (s.asks p .subList tag [] → ∃ ids : List EntryId, ids.Pairwise (· < ·) ∧
      (∀ e, e ∈ ids ↔ ∃ x, s.entry e = some x ∧ x.owner = p) ∧
      exec (.subList p) s = .next (s.answered p .subList tag .ok (BitVec.ofNat 8 ids.length :: ids.flatMap fun e =>
        match s.entry e with
        | none => []
        | some x =>
          [BitVec.ofNat 8 (e.val + 16 * x.profile.val + (if x.enabled then 64 else 0) +
            (if (s.profile x.profile).isSome then 128 else 0)), x.value, x.mask, x.kinds.zeroExtend 8]))) ∧
    (s.asks p .ringQuery tag [] →
      let place (q : Port) : List Byte :=
        match s.ring q with
        | none => [0, 0, 0]
        | some r => [1, BitVec.ofNat 8 r.base, BitVec.ofNat 8 r.depth]
      exec (.ringQuery p) s = .next (s.answered p .ringQuery tag .ok (
        (match s.ring p with
          | none => [0, 0, 0, 0, 0, 0, 0]
          | some r => [1, BitVec.ofNat 8 r.base, BitVec.ofNat 8 r.depth, r.policy.code, BitVec.ofNat 8 r.head,
              BitVec.ofNat 8 r.count, BitVec.ofNat 8 r.pendingMissed])
          ++ place 0 ++ place 1 ++ place 2 ++ place 3)))

/-- LINE_QUERY, R67, R184: the snapshot of the line position and its job, the stack with the class of each job from bottom
to top, the lengths of the class queues, the size of the backoff set, and whether the line is quiet. It changes nothing
else. -/
def Obligations.LineQueryShowsArbiter : Prop :=
  ∀ (s : State) (p : Port) (tag : Byte), s.asks p .lineQuery tag [] → s.la.stack.length ≤ 3 →
    ∃ front stack : List Byte,
      exec (.lineQuery p) s = .next (s.answered p .lineQuery tag .ok (front ++ stack ++
        [BitVec.ofNat 8 s.la.queues[0].length, BitVec.ofNat 8 s.la.queues[1].length,
          BitVec.ofNat 8 s.la.queues[2].length, BitVec.ofNat 8 s.la.queues[3].length,
          BitVec.ofNat 8 s.la.backoff.length, if s.rx.level = .space then 1 else 0])) ∧
      (s.la.position = .empty → front = [0, 0, 0, 0, 0, 0]) ∧
      (∀ i o j, s.la.position = .candidate i o → s.job i = some j → front =
        [1, BitVec.ofNat 8 i.val, BitVec.ofNat 8 j.cls.val, j.state.code, if o = .stack then 1 else 0, 0]) ∧
      (∀ i j, s.la.position = .holder i → s.job i = some j → front =
        [2, BitVec.ofNat 8 i.val, BitVec.ofNat 8 j.cls.val, j.state.code, 0,
          if j.state = .gap ∧ s.la.periodDone = true then 1 else 0]) ∧
      stack.length = 7 ∧ stack[0]? = some (BitVec.ofNat 8 s.la.stack.length) ∧
      (∀ k i j, s.la.stack[k]? = some i → s.job i = some j →
        stack[1 + 2 * k]? = some (BitVec.ofNat 8 i.val) ∧ stack[2 + 2 * k]? = some (BitVec.ofNat 8 j.cls.val)) ∧
      ∀ k, 1 + 2 * s.la.stack.length ≤ k → k < 7 → stack[k]? = some 0

/-- The byte at an offset of a request body as a number. -/
def Claims.at (body : List Byte) (k : Nat) : Nat := (body.getD k 0).toNat

/-- The two-byte field at an offset of a request body, low byte first (R181). -/
def Claims.wordAt (body : List Byte) (k : Nat) : Nat := Claims.at body k + 256 * Claims.at body (k + 1)

/-- Every field of a PROFILE_SET body, at its offset of R183, lies in its range of R5, a named field among its codes of
R182. -/
def Claims.fieldsInRange (body : List Byte) : Prop :=
  let at' := Claims.at body
  at' 2 ≤ 2 ∧ (100 ≤ Claims.wordAt body 3 ∧ Claims.wordAt body 3 ≤ 4000) ∧
    (at' 5 = 0 ∨ (20 ≤ at' 5 ∧ at' 5 ≤ 80)) ∧ (at' 6 = 25 ∨ at' 6 = 33 ∨ at' 6 = 50) ∧
    (2 ≤ at' 7 ∧ at' 7 ≤ 32) ∧ (1 ≤ at' 8 ∧ at' 8 ≤ 32) ∧ at' 9 ≤ 1 ∧ at' 10 ≤ 6 ∧ at' 11 ≤ 2 ∧ at' 12 ≤ 1 ∧
    (1 ≤ at' 13 ∧ at' 13 ≤ 32) ∧ (20 ≤ Claims.wordAt body 14 ∧ Claims.wordAt body 14 ≤ 500) ∧
    (20 ≤ Claims.wordAt body 16 ∧ Claims.wordAt body 16 ≤ 1000) ∧ (4 ≤ at' 18 ∧ at' 18 ≤ 64) ∧
    (4 ≤ at' 19 ∧ at' 19 ≤ 64) ∧ (1 ≤ at' 20 ∧ at' 20 ≤ 100) ∧ (1 ≤ at' 21 ∧ at' 21 ≤ 15)

/-- The profile record that a PROFILE_SET body whose fields are in range carries (R182, R183). -/
def Claims.profileIn (body : List Byte) : Profile :=
  let at' := Claims.at body
  { coding := if at' 2 = 0 then .pdist else if at' 2 = 1 then .pwidth else .split
    cellUs := Claims.wordAt body 3, carrierKhz := at' 5, duty := at' 6, leaderMark := at' 7, leaderSpace := at' 8
    lengthMode := if at' 9 = 0 then .fixed else .counted
    fixedLen := at' 10
    check := if at' 11 = 0 then .noCheck else if at' 11 = 1 then .sum8 else .crc8
    repeatForm := if at' 12 = 0 then .full else .marker
    repeatSpace := at' 13, repeatPeriodMs := Claims.wordAt body 14, holdWindowMs := Claims.wordAt body 16
    endGap := at' 18, guardCells := at' 19, backoffBaseMs := at' 20, attemptDefault := at' 21 }

/-- The worst-case frame of a profile in cells, with B, w and s of R13. -/
def Claims.worstFrame (pr : Profile) : Nat :=
  let B := 8 + (if pr.lengthMode = .counted then 4 + 48 else 8 * pr.fixedLen) + (if pr.check = .noCheck then 0 else 8)
  let w := match pr.coding with
    | .pdist => 4
    | .pwidth => 3
    | .split => 1
  let s := if pr.coding = .pdist then 1 else 0
  pr.leaderMark + pr.leaderSpace + B * w + s

/-- PROFILE_SET and PROFILE_GET, R5, R13 to R17, R183, R184. The checks of a PROFILE_SET come in their order: the number
and the define flag; the ranges of the fields at their offsets, with define yes; the period test over the worst-case
frame; and that no job and no enabled entry names the profile. One that passes replaces the record by the fields of the
body, or leaves it undefined, and nothing else changes. A PROFILE_GET reports the record byte for byte as a PROFILE_SET
carries it, with the two counts of its users and whether it is listened for. -/
def Obligations.ProfileRequestsSetAndShow : Prop :=
  (∀ (s : State) (p : Port) (tag number define : Byte) (fields : List Byte), fields.length = 20 →
    s.asks p .profileSet tag (number :: define :: fields) →
    (3 < number.toNat ∨ 1 < define.toNat →
      exec (.profileSet p) s = .next (s.answered p .profileSet tag .badValue [])) ∧
    ∀ q : ProfileId, number = BitVec.ofNat 8 q.val →
      let body := number :: define :: fields
      let pr := Claims.profileIn body
      let used : Prop := (∃ i j, s.job i = some j ∧ j.profile = q) ∨
        ∃ e x, s.entry e = some x ∧ x.enabled = true ∧ x.profile = q
      (define = 1 → ¬Claims.fieldsInRange body →
        exec (.profileSet p) s = .next (s.answered p .profileSet tag .badProfile [])) ∧
      (define = 1 → Claims.fieldsInRange body →
        (pr.repeatPeriodMs * 1000 < (Claims.worstFrame pr + pr.endGap) * pr.cellUs →
          exec (.profileSet p) s = .next (s.answered p .profileSet tag .badProfile [])) ∧
        ((Claims.worstFrame pr + pr.endGap) * pr.cellUs ≤ pr.repeatPeriodMs * 1000 →
          (used → exec (.profileSet p) s = .next (s.answered p .profileSet tag .inUse [])) ∧
          (¬used → exec (.profileSet p) s =
            .next (State.answered { s with profiles := s.profiles.set q (some pr) } p .profileSet tag .ok [])))) ∧
      (define = 0 →
        (used → exec (.profileSet p) s = .next (s.answered p .profileSet tag .inUse [])) ∧
        (¬used → exec (.profileSet p) s =
          .next (State.answered { s with profiles := s.profiles.set q none } p .profileSet tag .ok [])))) ∧
  (∀ (s : State) (p : Port) (tag number : Byte), s.asks p .profileGet tag [number] → 3 < number.toNat →
    exec (.profileGet p) s = .next (s.answered p .profileGet tag .badValue [])) ∧
  ∀ (s : State) (p : Port) (tag : Byte) (q : ProfileId), s.asks p .profileGet tag [BitVec.ofNat 8 q.val] →
    let jobsUsing := (List.finRange 24).countP fun i => (s.job i).any fun j => j.profile == q
    let subsUsing := (List.finRange 16).countP fun e => (s.entry e).any fun x => x.enabled && x.profile == q
    ∃ fields, exec (.profileGet p) s = .next (s.answered p .profileGet tag .ok
        ([BitVec.ofNat 8 q.val, if (s.profile q).isSome then 1 else 0] ++ fields ++
          [BitVec.ofNat 8 jobsUsing, BitVec.ofNat 8 subsUsing,
            if (s.profile q).isSome ∧ 0 < subsUsing then 1 else 0])) ∧
      fields.length = 20 ∧ (s.profile q = none → fields = List.replicate 20 0) ∧
      ∀ sent, sent.length = 22 → Claims.fieldsInRange sent → s.profile q = some (Claims.profileIn sent) →
        fields = sent.drop 2

/-- The bytes of a SUBMIT body, as R183 lays them out. -/
def Claims.submitBody (x : Submission) (kind : Byte) : List Byte :=
  [x.key, BitVec.ofNat 8 x.cls.val, kind, BitVec.ofNat 8 (x.burstCount.getD 0), BitVec.ofNat 8 x.profile.val, x.address,
    BitVec.ofNat 8 (x.deadlineMs.getD 0), BitVec.ofNat 8 (x.deadlineMs.getD 0 / 256), BitVec.ofNat 8 (x.lease.getD 0),
    BitVec.ofNat 8 (x.attemptLimit.getD 0), BitVec.ofNat 8 x.data.length] ++ x.data

/-- A SUBMIT whose parts lie in their ranges, R28: burst_count with BURST alone and 2 to 255, lease with HELD alone and 1
to 255, deadline_ms and attempt_limit absent or in range, and at most 6 data bytes. -/
def Claims.submissionInRange (x : Submission) (kind : Byte) : Prop :=
  ((x.kind = .oneshot ∧ kind = 0 ∧ x.burstCount = none ∧ x.lease = none) ∨
    (x.kind = .burst ∧ kind = 1 ∧ (∃ n, x.burstCount = some n ∧ 2 ≤ n ∧ n ≤ 255) ∧ x.lease = none) ∨
    (x.kind = .held ∧ kind = 2 ∧ x.burstCount = none ∧ ∃ n, x.lease = some n ∧ 1 ≤ n ∧ n ≤ 255)) ∧
  (∀ n, x.deadlineMs = some n → 1 ≤ n ∧ n ≤ 60000) ∧ (∀ n, x.attemptLimit = some n → 1 ≤ n ∧ n ≤ 15) ∧
  x.data.length ≤ 6

/-- The job that would take a merge of port p's key, R30: unstarted, of that owner and that key, which is not 0. -/
def Claims.mergesInto (s : State) (p : Port) (key : Byte) (i : SlotId) : Prop :=
  key ≠ 0 ∧ ∃ j, s.job i = some j ∧ j.owner = p ∧ j.key = key ∧ j.started = false ∧
    (j.state = .queued ∨ j.state = .starting)

/-- SUBMIT, R21, R22, R27 to R29, R35 to R37, R183. A SUBMIT with a field out of its range is BAD_VALUE. With no merge
target, one in range that fits a defined profile is accepted into the lowest FREE slot: its ticket rises, its record is
filled, its deadline and its lease start, and it joins the tail of its class queue. Port p's jobs and notices at 8 make it
NO_ROOM, a full table TABLE_FULL, an undefined profile NO_PROFILE and a data list that does not fit a FIXED profile
BAD_VALUE, with nothing changed. -/
def Obligations.SubmitAllocatesLowestSlot : Prop :=
  (∀ (s : State) (p : Port) (tag : Byte) (body : List Byte), s.asks p .submit tag body →
    let b (k : Nat) : Nat := (body.getD k 0).toNat
    (3 < b 1 ∨ 2 < b 2 ∨ 3 < b 4 ∨ (b 2 = 1 ∧ b 3 < 2) ∨ (b 2 ≠ 1 ∧ b 3 ≠ 0) ∨ (b 2 = 2 ∧ b 8 = 0) ∨
      (b 2 ≠ 2 ∧ b 8 ≠ 0) ∨ 60000 < b 6 + 256 * b 7 ∨ 15 < b 9 ∨ 6 < b 10 ∨ b 10 ≠ body.length - 11) →
    exec (.submit p) s = .next (s.answered p .submit tag .badValue [])) ∧
  ∀ (s : State) (p : Port) (tag kind : Byte) (x : Submission), Claims.submissionInRange x kind →
    s.asks p .submit tag (Claims.submitBody x kind) →
    (s.profile x.profile = none → exec (.submit p) s = .next (s.answered p .submit tag .noProfile [])) ∧
    ∀ pr, s.profile x.profile = some pr →
      (pr.lengthMode = .fixed → x.data.length ≠ pr.fixedLen →
        exec (.submit p) s = .next (s.answered p .submit tag .badValue [])) ∧
      (pr.lengthMode = .counted ∨ x.data.length = pr.fixedLen → (∀ i, ¬Claims.mergesInto s p x.key i) →
        (8 ≤ s.noticeSum p → exec (.submit p) s = .next (s.answered p .submit tag .noRoom [])) ∧
        (s.noticeSum p < 8 → (∀ i, s.job i ≠ none) →
          exec (.submit p) s = .next (s.answered p .submit tag .tableFull [])) ∧
        ∀ i, s.noticeSum p < 8 → s.job i = none → (∀ k < i, s.job k ≠ none) →
          let j : Job := {
            owner := p, epoch := (s.port p).epoch, key := x.key, cls := x.cls, kind := x.kind
            burstCount := x.burstCount, profile := x.profile, address := x.address, data := x.data
            deadlineMs := x.deadlineMs, lease := x.lease, attemptLimit := x.attemptLimit.getD pr.attemptDefault
            state := .queued, sent := 0, attempts := 0, collisionsTotal := 0, merges := 0, started := false
            cancelPending := false, endPending := none, resumeFull := false, orphan := false, submitTag := tag
            deadlineTimer := x.deadlineMs, leaseTimer := x.lease.map (· * 100), backoffTimer := none }
          exec (.submit p) s = .next (State.answered
            (({ s with jobs := s.jobs.set i { ticket := s.ticket i + 1, job := some j } } : State).joinTail i)
            p .submit tag .ok [BitVec.ofNat 8 i.val, s.ticket i + 1]))

/-- SUBMIT that merges, R30 to R33: whatever the notice room, the unstarted job of the same port and key takes the values
of the SUBMIT and its tag, and counts a merge, to 255; its deadline and lease restart or stop; its slot, ticket, owner,
epoch and key and the rest of its record stay. With its class unchanged it stays where it stands, and a candidate's guard
restarts; with its class changed it leaves its place and joins the tail of its new queue. -/
def Obligations.SubmitMergesIntoUnstartedJob : Prop :=
  ∀ (s : State) (p : Port) (tag kind : Byte) (x : Submission) (pr : Profile) (i : SlotId) (j : Job),
    Claims.submissionInRange x kind → s.asks p .submit tag (Claims.submitBody x kind) →
    s.profile x.profile = some pr → (pr.lengthMode = .counted ∨ x.data.length = pr.fixedLen) →
    Claims.mergesInto s p x.key i → (∀ k < i, ¬Claims.mergesInto s p x.key k) → s.job i = some j →
    let merged := s.modifyJob i fun j => { j with
      cls := x.cls, kind := x.kind, burstCount := x.burstCount, profile := x.profile, address := x.address
      data := x.data, deadlineMs := x.deadlineMs, lease := x.lease
      attemptLimit := x.attemptLimit.getD pr.attemptDefault, submitTag := tag, merges := min (j.merges + 1) 255
      deadlineTimer := x.deadlineMs, leaseTimer := x.lease.map (· * 100) }
    let handle : List Byte := [BitVec.ofNat 8 i.val, s.ticket i]
    (x.cls = j.cls → j.state = .queued → exec (.submit p) s = .next (merged.answered p .submit tag .merged handle)) ∧
    (x.cls = j.cls → j.state = .starting → exec (.submit p) s = .next (State.answered { merged with
      la := { s.la with guard := some { count := 0, target := pr.guardCells * pr.cellUs } } }
      p .submit tag .merged handle)) ∧
    (x.cls ≠ j.cls → exec (.submit p) s = .next (State.answered
      (State.joinTail { merged with la := s.la.without i } i) p .submit tag .merged handle))

/-- The requests that carry a handle. -/
def Claims.handleCommand (p : Port) : RequestKind → Option Instr
  | .keep => some (.keep p)
  | .release => some (.release p)
  | .cancel => some (.cancel p)
  | .jobQuery => some (.jobQuery p)
  | _ => none

/-- The handle names a live job that is no orphan (R42 check 1). -/
def Claims.names (s : State) (slot ticket : Byte) (i : SlotId) (j : Job) : Prop :=
  slot = BitVec.ofNat 8 i.val ∧ s.job i = some j ∧ s.ticket i = ticket ∧ j.orphan = false

/-- R42: KEEP, RELEASE, CANCEL and JOB_QUERY with a handle that names no live job, one that is FREE, has another ticket or
is an orphan, answer NO_JOB; with a handle of another port's job they answer NOT_OWNER. Nothing changes in either case. -/
def Obligations.HandleCheckedBeforeRequest : Prop :=
  ∀ (s : State) (p : Port) (k : RequestKind) (c : Instr) (tag slot ticket : Byte), Claims.handleCommand p k = some c →
    s.asks p k tag [slot, ticket] →
    ((¬∃ i j, Claims.names s slot ticket i j) → exec c s = .next (s.answered p k tag .noJob [])) ∧
    ∀ i j, Claims.names s slot ticket i j → j.owner ≠ p → exec c s = .next (s.answered p k tag .notOwner [])

/-- KEEP, R90: a job that is not HELD answers WRONG_KIND and one whose lease lapsed in SENDING TOO_LATE; otherwise, in
every state of the job, the lease timer restarts with lease × 100 ms and nothing else changes. -/
def Obligations.KeepRestartsLease : Prop :=
  ∀ (s : State) (p : Port) (tag slot ticket : Byte) (i : SlotId) (j : Job), s.asks p .keep tag [slot, ticket] →
    Claims.names s slot ticket i j → j.owner = p →
    (j.kind ≠ .held → exec (.keep p) s = .next (s.answered p .keep tag .wrongKind [])) ∧
    (j.kind = .held → j.endPending = some .lapsed → exec (.keep p) s = .next (s.answered p .keep tag .tooLate [])) ∧
    (j.kind = .held → j.endPending ≠ some .lapsed → exec (.keep p) s = .next (State.answered
      (s.modifyJob i fun x => { x with leaseTimer := j.lease.map (· * 100) }) p .keep tag .ok []))

/-- RELEASE and CANCEL, R91 to R93. For a RELEASE, a job that is not HELD answers WRONG_KIND. In SENDING the answer is
DEFERRED, and end_pending becomes RELEASED unless an end or a cancel is pending. An unstarted job in QUEUED or STARTING
becomes a ONESHOT without a lease and stays where it is. Any other HELD job ends RELEASED at once. For a CANCEL, in
SENDING the answer is DEFERRED and cancel_pending is yes; in every other state the job ends CANCELLED at once. -/
def Obligations.ReleaseAndCancelEndOrDefer : Prop :=
  (∀ (s : State) (p : Port) (tag slot ticket : Byte) (i : SlotId) (j : Job), s.asks p .release tag [slot, ticket] →
    Claims.names s slot ticket i j → j.owner = p →
    let waiting := (j.state = .queued ∨ j.state = .starting) ∧ j.started = false
    (j.kind ≠ .held → exec (.release p) s = .next (s.answered p .release tag .wrongKind [])) ∧
    (j.kind = .held → j.state = .sending → j.endPending = none → j.cancelPending = false →
      exec (.release p) s = .next (State.answered (s.modifyJob i fun x => { x with endPending := some .released })
        p .release tag .deferred [])) ∧
    (j.kind = .held → j.state = .sending → (j.endPending ≠ none ∨ j.cancelPending = true) →
      exec (.release p) s = .next (s.answered p .release tag .deferred [])) ∧
    (j.kind = .held → waiting → exec (.release p) s = .next (State.answered
      (s.modifyJob i fun x => { x with kind := .oneshot, lease := none, leaseTimer := none }) p .release tag .ok [])) ∧
    (j.kind = .held → j.state ≠ .sending → ¬waiting →
      exec (.release p) s = .next ((s.endJob i .released).answered p .release tag .ok []))) ∧
  ∀ (s : State) (p : Port) (tag slot ticket : Byte) (i : SlotId) (j : Job), s.asks p .cancel tag [slot, ticket] →
    Claims.names s slot ticket i j → j.owner = p →
    (j.state = .sending → exec (.cancel p) s = .next (State.answered
      (s.modifyJob i fun x => { x with cancelPending := true }) p .cancel tag .deferred [])) ∧
    (j.state ≠ .sending → exec (.cancel p) s = .next ((s.endJob i .cancelled).answered p .cancel tag .ok []))

/-- JOB_QUERY, R43, R184: the snapshot of the record, 32 bytes, with nothing else changed. The place of a QUEUED job is its
position from the head of its class queue, that of a SUSPENDED job its position from the top of the stack, and 0
otherwise. That a timer which has run out and whose expiry is not yet taken shows 1 is the model's (log 9). -/
def Obligations.JobQueryShowsRecord : Prop :=
  ∀ (s : State) (p : Port) (tag slot ticket : Byte) (i : SlotId) (j : Job), s.asks p .jobQuery tag [slot, ticket] →
    Claims.names s slot ticket i j → j.owner = p → j.data.length ≤ 6 →
    let left (t : Timer) : Nat :=
      match t with
      | none => 0
      | some n => if n = 0 then 1 else n
    let number (n : Nat) : Byte := BitVec.ofNat 8 n
    let pair (n : Nat) : List Byte := [number n, number (n / 256)]
    ∃ place, exec (.jobQuery p) s = .next (s.answered p .jobQuery tag .ok (
        [slot, ticket, j.key, number j.cls.val, j.kind.code, number (j.burstCount.getD 0), number j.profile.val,
          j.address, number j.data.length] ++ j.data ++ List.replicate (6 - j.data.length) (0 : Byte) ++
        [j.state.code, number place, number j.sent, number j.attempts, number j.attemptLimit,
          number j.collisionsTotal, number j.merges,
          number ((if j.started then 1 else 0) + (if j.cancelPending then 2 else 0) + (if j.resumeFull then 4 else 0)),
          (match j.endPending with
            | none => (0 : Byte)
            | some .released => 1
            | some .lapsed => 2)] ++
        pair (left j.deadlineTimer) ++ [number (j.lease.getD 0)] ++ pair (left j.leaseTimer) ++
        pair (left j.backoffTimer) ++ [j.submitTag])) ∧
      (∀ ahead behind, j.state = .queued → s.la.queues[j.cls] = ahead ++ i :: behind → i ∉ ahead →
        place = ahead.length) ∧
      (∀ below above, j.state = .suspended → s.la.stack = below ++ i :: above → i ∉ above → place = above.length) ∧
      (j.state ≠ .queued → j.state ≠ .suspended → place = 0)

/-- SUBSCRIBE, R127 to R129: in range and with a defined profile it takes the lowest free entry, with the caller as its
owner, and answers the entry's id; an undefined profile is NO_PROFILE, a full table TABLE_FULL, and a profile number, a
kinds set or a flag out of range BAD_VALUE. Nothing but the table and, by the listening set (R18), the decoder changes. -/
def Obligations.SubscribeTakesLowestEntry : Prop :=
  ∀ (s : State) (p : Port) (tag profile value mask kinds flag : Byte),
    s.asks p .subscribe tag [profile, value, mask, kinds, flag] →
    (3 < profile.toNat ∨ kinds.toNat = 0 ∨ 31 < kinds.toNat ∨ 1 < flag.toNat →
      exec (.subscribe p) s = .next (s.answered p .subscribe tag .badValue [])) ∧
    ∀ q : ProfileId, profile = BitVec.ofNat 8 q.val → 1 ≤ kinds.toNat → kinds.toNat ≤ 31 → flag.toNat ≤ 1 →
      (s.profile q = none → exec (.subscribe p) s = .next (s.answered p .subscribe tag .noProfile [])) ∧
      (s.profile q ≠ none → (∀ e, s.entry e ≠ none) →
        exec (.subscribe p) s = .next (s.answered p .subscribe tag .tableFull [])) ∧
      ∀ e, s.profile q ≠ none → s.entry e = none → (∀ e' < e, s.entry e' ≠ none) →
        exec (.subscribe p) s = .next (State.answered
          (State.reevaluateListening { s with entries := s.entries.set e (some {
            owner := p, profile := q, value := value, mask := mask, kinds := kinds.truncate 5
            enabled := decide (flag = 1) }) }) p .subscribe tag .ok [BitVec.ofNat 8 e.val])

/-- UNSUBSCRIBE and SUB_ENABLE, R130 to R132: an id above 15 or of a free entry is BAD_VALUE, and another port's entry
NOT_OWNER. UNSUBSCRIBE frees the entry. SUB_ENABLE with a flag that is neither on nor off is BAD_VALUE; with the flag the
entry already has, it changes nothing; on for an undefined profile is NO_PROFILE; otherwise the entry takes the flag. The
listening set is then re-evaluated (R18). -/
def Obligations.EntryRequestsActOnOwnEntries : Prop :=
  ∀ (s : State) (p : Port) (tag id flag : Byte),
    (s.asks p .unsubscribe tag [id] →
      ((∀ e x, id = BitVec.ofNat 8 e.val → s.entry e ≠ some x) →
        exec (.unsubscribe p) s = .next (s.answered p .unsubscribe tag .badValue [])) ∧
      ∀ e x, id = BitVec.ofNat 8 e.val → s.entry e = some x →
        (x.owner ≠ p → exec (.unsubscribe p) s = .next (s.answered p .unsubscribe tag .notOwner [])) ∧
        (x.owner = p → exec (.unsubscribe p) s = .next (State.answered
          (State.reevaluateListening { s with entries := s.entries.set e none }) p .unsubscribe tag .ok []))) ∧
    (s.asks p .subEnable tag [id, flag] →
      ((∀ e x, id = BitVec.ofNat 8 e.val → s.entry e ≠ some x) →
        exec (.subEnable p) s = .next (s.answered p .subEnable tag .badValue [])) ∧
      ∀ e x, id = BitVec.ofNat 8 e.val → s.entry e = some x →
        (x.owner ≠ p → exec (.subEnable p) s = .next (s.answered p .subEnable tag .notOwner [])) ∧
        (x.owner = p → 1 < flag.toNat → exec (.subEnable p) s = .next (s.answered p .subEnable tag .badValue [])) ∧
        (x.owner = p → flag = (if x.enabled then 1 else 0) →
          exec (.subEnable p) s = .next (s.answered p .subEnable tag .ok [])) ∧
        (x.owner = p → x.enabled = false → flag = 1 → s.profile x.profile = none →
          exec (.subEnable p) s = .next (s.answered p .subEnable tag .noProfile [])) ∧
        (x.owner = p → x.enabled = false → flag = 1 → s.profile x.profile ≠ none →
          exec (.subEnable p) s = .next (State.answered (State.reevaluateListening { s with
            entries := s.entries.set e (some { x with enabled := true }) }) p .subEnable tag .ok [])) ∧
        (x.owner = p → x.enabled = true → flag = 0 →
          exec (.subEnable p) s = .next (State.answered (State.reevaluateListening { s with
            entries := s.entries.set e (some { x with enabled := false }) }) p .subEnable tag .ok [])))

/-- The listening set is re-evaluated, R18: a candidate that has left it can no longer win; a frame, a marker or an error
tail of a profile that has left it ends without an event and waits out the noise gap. Nothing else changes. That a
candidate is dropped at its departure, and not at the end of the leader space, and that the bound of the leader space
stays as it was judged are the model's reading (log 14, DEDUCED). -/
def Obligations.DepartedProfileStopsDecode : Prop :=
  ∀ s : State,
    let noise : State := { s with rx := { s.rx with decoder := .tail none } }
    (∀ qs longest, s.rx.decoder = .leaderSpace qs longest → s.reevaluateListening =
      { s with rx := { s.rx with decoder := .leaderSpace (qs.filter fun q => s.listening q) longest } }) ∧
    (∀ d, s.rx.decoder = .bits d → s.reevaluateListening = if s.listening d.winner then s else noise) ∧
    (∀ q gap, s.rx.decoder = .tail (some (q, gap)) → s.reevaluateListening = if s.listening q then s else noise) ∧
    (s.rx.decoder = .idle ∨ s.rx.decoder = .leaderMark ∨ s.rx.decoder = .tail none ∨ s.rx.decoder = .echo →
      s.reevaluateListening = s) ∧
    ∀ q, s.listening q = true ↔ s.profile q ≠ none ∧
      ∃ e x, s.entry e = some x ∧ x.enabled = true ∧ x.profile = q

/-- RING_SET, R144, R146 to R148: the checks come in their order: a field out of range is BAD_VALUE, slots past 127
BAD_RANGE, slots of another port's ring OVERLAP, and records waiting without discard RING_NOT_EMPTY. One that passes
defines the ring, empty, or with depth 0 undefines it; the slots of the old ring hold no record, and every other byte of
frame memory stays. That the bytes of a slot without a record are 0 is the model's (log 4). A depth of 0 makes no test of
the range. -/
def Obligations.RingSetPlacesEmptyRing : Prop :=
  ∀ (s : State) (p : Port) (tag base depth policy discard : Byte), s.asks p .ringSet tag [base, depth, policy, discard] →
    let refused (st : Status) : Prop := exec (.ringSet p) s = .next (s.answered p .ringSet tag st [])
    let past : Prop := 1 ≤ depth.toNat ∧ 128 < base.toNat + depth.toNat
    let meets : Prop := 1 ≤ depth.toNat ∧ ∃ q r, q ≠ p ∧ s.ring q = some r ∧ base.toNat < r.base + r.depth ∧
      r.base < base.toNat + depth.toNat
    let waits : Prop := 0 < s.ringCount p ∧ discard = 0
    (127 < base.toNat ∨ 64 < depth.toNat ∨ 1 < policy.toNat ∨ 1 < discard.toNat → refused .badValue) ∧
    (base.toNat ≤ 127 → depth.toNat ≤ 64 → policy.toNat ≤ 1 → discard.toNat ≤ 1 →
      (past → refused .badRange) ∧
      (¬past → meets → refused .overlap) ∧
      (¬past → ¬meets → waits → refused .ringNotEmpty) ∧
      (¬past → ¬meets → ¬waits →
        let ring : Option Ring := if depth = 0 then none else some {
          base := base.toNat, depth := depth.toNat, policy := if policy = 0 then .keepOld else .keepNew
          head := 0, count := 0, pendingMissed := 0 }
        ∃ mem, exec (.ringSet p) s = .next (State.answered { s with
            mem := mem, rings := s.rings.set p ring
            ports := s.ports.set p { s.port p with
              attn := (s.port p).isOpen && (!(s.port p).notices.isEmpty || decide ((s.port p).threshold = 0)) } }
            p .ringSet tag .ok []) ∧
          (s.ring p = none → mem = s.mem) ∧
          ∀ r, s.ring p = some r →
            (r.lawful → Memory.wf s.mem = true →
              ∀ i < r.count, Memory.readSlot (r.base + (r.head + i) % r.depth) mem = List.replicate 16 0) ∧
            ∀ a, (∀ i < r.count, ¬(16 * (r.base + (r.head + i) % r.depth) ≤ a ∧
                a < 16 * (r.base + (r.head + i) % r.depth) + 16)) →
              Memory.read a mem = Memory.read a s.mem))

/-- RING_READ, R145, R154: for n of 1 to 4 the oldest n records, or all there are, leave the caller's ring from position 0
and are returned oldest first, as they stood in frame memory, behind their number and the count left; the rest of the
descriptor stays, ATTNn follows its condition, and every byte outside the slots read stays. An undefined ring answers
zeros, and any other n BAD_VALUE. -/
def Obligations.RingReadRemovesOldest : Prop :=
  ∀ (s : State) (p : Port) (tag n : Byte), s.asks p .ringRead tag [n] →
    (n.toNat = 0 ∨ 4 < n.toNat → exec (.ringRead p) s = .next (s.answered p .ringRead tag .badValue [])) ∧
    (1 ≤ n.toNat → n.toNat ≤ 4 →
      (s.ring p = none → exec (.ringRead p) s = .next (s.answered p .ringRead tag .ok [0, 0, 0])) ∧
      ∀ r, s.ring p = some r → r.lawful →
        let k := min n.toNat r.count
        let slot (i : Nat) : Nat := r.base + (r.head + i) % r.depth
        ∃ mem, exec (.ringRead p) s = .next (State.answered { s with
            mem := mem
            rings := s.rings.set p (some { r with head := (r.head + k) % r.depth, count := r.count - k })
            ports := s.ports.set p { s.port p with
              attn := (s.port p).isOpen &&
                (!(s.port p).notices.isEmpty || decide ((s.port p).threshold ≤ r.count - k)) } } p .ringRead tag .ok
            ([1, BitVec.ofNat 8 k, BitVec.ofNat 8 (r.count - k)] ++
              (List.range k).flatMap fun i => Memory.readSlot (slot i) s.mem)) ∧
          ∀ a, (∀ i < k, ¬(16 * slot i ≤ a ∧ a < 16 * slot i + 16)) → Memory.read a mem = Memory.read a s.mem)

/-! ### The host ports -/

/-- The bytes of a response envelope, R168, R181: the body's length, the code, the tag, the status, the body and a check
byte that brings the sum to 0. -/
def Claims.isEnvelope (r : Response) (bytes : List Byte) : Prop :=
  ∃ check, bytes = [BitVec.ofNat 8 r.body.length, r.code, r.tag, r.status.code] ++ r.body ++ [check] ∧ bytes.sum = 0

/-- SELECT and SERIAL_CLOCK_EDGE, R159, R161 to R163, R166. A select in IDLE begins a transaction that clocks out READY
and the response, or EMPTY; in EXECUTING it begins a refused one that clocks out BUSY. A rising edge in SELECTED takes a
bit, and each eighth makes a byte, most significant bit first; a refused transaction discards it. A falling edge in a
transaction presents the next outgoing bit, filler after the last byte. Outside a transaction SCKn moves nothing but its
own level; that this holds too for a select that full reset left low, where no bit is taken and SDOn stays undriven, is
the model's reading (log 8, DEDUCED). A wire that already has the level does not change it (the model's choice, log 5). -/
def Obligations.WiresMoveOwnPort : Prop :=
  ∀ (s : State) (p : Port),
    let h := s.port p
    let becomes (c : Instr) (h' : HostPort) : Prop := exec c s = .next { s with ports := s.ports.set p h' }
    let begun (out : List Byte) : HostPort := { h with
      selectLow := true, bitsIn := [], received := [], out := out, outBit := 0
      sdo := some ((out.headD 0).getMsbD 0) }
    let active := h.txn = .selected ∨ h.refused = true
    (h.selectLow = true → exec (.select p) s = .next s) ∧
    (h.selectLow = false → h.txn = .idle →
      (h.response = none → becomes (.select p) { begun [0x5A] with txn := .selected }) ∧
      ∀ r, h.response = some r → ∃ bytes, Claims.isEnvelope r bytes ∧
        becomes (.select p) { begun (0xA5 :: bytes) with txn := .selected }) ∧
    (h.selectLow = false → h.txn = .executing → becomes (.select p) { begun [0xC3] with refused := true }) ∧
    (∀ bit, h.clockHigh = true → exec (.serialClockEdge p (.rising bit)) s = .next s) ∧
    (∀ bit, h.clockHigh = false → ¬(h.txn = .selected ∧ h.refused = false) →
      becomes (.serialClockEdge p (.rising bit)) { h with clockHigh := true }) ∧
    (∀ bit, h.clockHigh = false → h.txn = .selected → h.refused = false → h.bitsIn.length < 7 →
      becomes (.serialClockEdge p (.rising bit)) { h with clockHigh := true, bitsIn := h.bitsIn ++ [bit] }) ∧
    (∀ bit, h.clockHigh = false → h.txn = .selected → h.refused = false → h.bitsIn.length = 7 →
      ∃ b : Byte, (∀ k < 8, some (b.getMsbD k) = (h.bitsIn ++ [bit])[k]?) ∧
        becomes (.serialClockEdge p (.rising bit)) { h with
          clockHigh := true, bitsIn := [], received := h.received ++ [b] }) ∧
    (h.clockHigh = false → exec (.serialClockEdge p .falling) s = .next s) ∧
    (h.clockHigh = true → active → becomes (.serialClockEdge p .falling) { h with
      clockHigh := false, outBit := h.outBit + 1
      sdo := some (((h.out[(h.outBit + 1) / 8]?).getD 0).getMsbD ((h.outBit + 1) % 8)) }) ∧
    (h.clockHigh = true → ¬active → becomes (.serialClockEdge p .falling) { h with clockHigh := false })

/-- DESELECT, R161, R163 to R167, R170, R182: the transaction ends and its bytes are judged in the order of the checks. No
byte, or a first byte of 0xFF, is read-only and leaves the buffer; a length of 31 to 254 is BAD_LENGTH, too few bytes
TRUNCATED, a sum other than 0 BAD_CHECK, an unknown code UNKNOWN_REQUEST, a length not allowed for the code BAD_LENGTH,
and a closed session NO_SESSION unless the code is OPEN's or HELLO's; each of these is answered at once. Any other request
is pending, and the port is EXECUTING. A refused transaction is not judged, and neither is a select that
full reset left low (log 8, DEDUCED). A select that is already high does not go high (the model's choice, log 5). -/
def Obligations.DeselectJudgesEnvelope : Prop :=
  ∀ (s : State) (p : Port),
    let h := s.port p
    let ended : HostPort := { h with
      selectLow := false, bitsIn := [], received := [], out := [], outBit := 0, sdo := none, refused := false }
    let becomes (h' : HostPort) : Prop := exec (.deselect p) s = .next { s with ports := s.ports.set p h' }
    (h.selectLow = false → exec (.deselect p) s = .next s) ∧
    (h.selectLow = true → h.refused = true ∨ h.txn ≠ .selected → becomes ended) ∧
    (h.selectLow = true → h.refused = false → h.txn = .selected →
      (h.received = [] → becomes { ended with txn := .idle }) ∧
      ∀ first rest, h.received = first :: rest →
        let len := first.toNat
        let code := (rest[0]?).getD 0
        let tag := (rest[1]?).getD 0
        let refusal (st : Status) : Prop :=
          becomes { ended with txn := .idle, response := some { code := code, tag := tag, status := st, body := [] } }
        (first = 0xFF → becomes { ended with txn := .idle }) ∧
        (31 ≤ len → len ≤ 254 → refusal .badLength) ∧
        (len ≤ 30 → rest.length < len + 3 → refusal .truncated) ∧
        (len ≤ 30 → len + 3 ≤ rest.length →
          ((first :: rest.take (len + 3)).sum ≠ 0 → refusal .badCheck) ∧
          ((first :: rest.take (len + 3)).sum = 0 →
            ((∀ k : RequestKind, k.code ≠ code) → refusal .unknownRequest) ∧
            ∀ k : RequestKind, k.code = code →
              (k.allowsLength len = false → refusal .badLength) ∧
              (k.allowsLength len = true → h.isOpen = false → k ≠ .openSession → k ≠ .hello →
                refusal .noSession) ∧
              (k.allowsLength len = true → (h.isOpen = true ∨ k = .openSession ∨ k = .hello) →
                becomes { ended with
                  txn := .executing, request := some { kind := k, tag := tag, body := (rest.drop 2).take len } }))))

/-! ### Encodings -/

/-- The outcome of commands taken one after the other. -/
def Claims.runAll (cs : List Instr) (s : State) : Host.Outcome State Fault Refusal :=
  cs.foldl (fun o c => match o with
    | .next t => exec c t
    | stop => stop) (.next s)

/-- The edges of SCKn that clock a byte in, most significant bit first (R159). -/
def Claims.clockIn (p : Port) (b : Byte) : List Instr :=
  (List.range 8).flatMap fun k => [.serialClockEdge p (.rising (b.getMsbD k)), .serialClockEdge p .falling]

/-- The codes of R182 and the envelope of R163: a host that selects an idle port, clocks in a request's length, code, tag
and body and the check byte that brings their sum to 0, then any further bytes, and deselects, leaves exactly that
request pending on its port, and nothing else of the part changed but its port. -/
def Obligations.RequestClockedInIsPending : Prop :=
  ∀ (s : State) (p : Port) (k : RequestKind) (tag check : Byte) (body more : List Byte),
    (s.port p).selectLow = false → (s.port p).clockHigh = false → (s.port p).txn = .idle → (s.port p).refused = false →
    k.allowsLength body.length = true → ((s.port p).isOpen = true ∨ k = .openSession ∨ k = .hello) →
    (BitVec.ofNat 8 body.length :: k.code :: tag :: body ++ [check]).sum = 0 →
    let bytes := (BitVec.ofNat 8 body.length :: k.code :: tag :: body ++ [check]) ++ more
    Claims.runAll ([.select p] ++ bytes.flatMap (Claims.clockIn p) ++ [.deselect p]) s = .next { s with
      ports := s.ports.set p { s.port p with
        selectLow := false, clockHigh := false, sdo := none, txn := .executing, refused := false, bitsIn := []
        received := [], out := [], outBit := 0, request := some { kind := k, tag := tag, body := body } } }

/-- R6, R114, R187: the fields read from a frame's body bits are the address, the data list and the check byte they were
made from, under every profile. -/
def Obligations.BodyBitsHoldTheirFields : Prop :=
  ∀ (pr : Profile) (address : Byte) (data : List Byte),
    pr.fieldsOf (pr.bodyBits address data) = (address, data, pr.checkByte address data)

/-- The marks and spaces of a body as the decoder judges them: a mark at its end, and a space when the next mark ends it.
The space after the last mark is part of the end gap (R6, R108). -/
def Claims.decodeSegments (pr : Profile) : List Segment → Decoding → Judgement
  | [], d => .going d
  | g :: rest, d =>
    if rest = [] ∧ g.level = .space then .going d
    else
      match (if g.level = .mark then d.judgeMark pr g.ticks else d.judgeSpace pr g.ticks) with
      | .failed k => .failed k
      | .going d' => Claims.decodeSegments pr rest d'

/-- The frame that a profile sends is the frame that it receives: its leader is accepted, and its body decodes to bits
that are complete at the end gap and hold the address, the data list and the check byte that were sent. -/
def Claims.receivesWhatItSends (pr : Profile) : Prop :=
  ∀ (q : ProfileId) (address : Byte) (data : List Byte),
    (pr.lengthMode = .fixed → data.length = pr.fixedLen) → data.length ≤ 6 →
    ∃ lead space body d, pr.frameSegments address data = ⟨.mark, lead⟩ :: ⟨.space, space⟩ :: body ∧
      pr.acceptsCells pr.leaderMark lead = true ∧ pr.shapeOf space = some .frame ∧
      Claims.decodeSegments pr body (pr.startDecoding q .frame space) = .going d ∧
      d.winner = q ∧ d.shape = .frame ∧ d.closable pr = true ∧
      pr.fieldsOf d.closedBits = (address, data, pr.checkByte address data)

/-- R6 to R9, R12, R70, R111 to R118 under PDIST and PWIDTH: every profile with a cell of its range receives what it
sends. -/
def Obligations.PulseFrameDecodesToItself : Prop :=
  ∀ pr : Profile, pr.coding ≠ .split → 100 ≤ pr.cellUs → Claims.receivesWhatItSends pr

/-- R6 to R9, R12, R70, R111 to R118 under SPLIT: every profile with a cell of its range receives what it sends, odd cells
and the joined half cells included. -/
def Obligations.SplitFrameDecodesToItself : Prop :=
  ∀ pr : Profile, pr.coding = .split → 100 ≤ pr.cellUs → 1 ≤ pr.leaderSpace → Claims.receivesWhatItSends pr

/-! ### Laws of the device that every step keeps -/

/-- The frame memory stays in its canonical form: addresses rising and within 2048 bytes (R143). -/
def Obligations.FrameMemoryStaysCanonical : Prop :=
  ∀ s t : State, Memory.wf s.mem = true → step s = .next t → Memory.wf t.mem = true

/-- R177, the law of the device: ATTNn is high exactly while the session is OPEN and a notice is held or the ring's count
is at the threshold. Every step keeps it, at every port. -/
def Obligations.AttentionFollowsItsCondition : Prop :=
  ∀ s t : State, s.attentionLawful → step s = .next t → t.attentionLawful

/-- R23, R46, R49, R68, the laws of the device: a job stands in exactly one place, the place of its state; a FREE slot
stands in none; and TX drives exactly while a job is SENDING. With them: a job that has not started is in its queue or is
a candidate that came from it, and it alone has a running deadline (R39). Every step keeps them. -/
def Obligations.JobsStandWhereTheirStateSays : Prop :=
  ∀ s t : State, s.arbiterLawful → step s = .next t → t.arbiterLawful

/-- R48, R51, the laws of the device: the stack's classes rise from bottom to top and stay below the class in the line
position, its jobs are started BURST or HELD jobs, and the line position is empty only when nothing waits in a queue or on
the stack. Every step keeps them where jobs stand in their places. -/
def Obligations.StackAndSelectionStayLawful : Prop :=
  ∀ s t : State, s.arbiterLawful → s.stackLawful → s.selectionLawful → step s = .next t →
    t.stackLawful ∧ t.selectionLawful

/-- R16: a profile that a job or an enabled entry names stays defined at every step. -/
def Obligations.ReferencedProfilesStayDefined : Prop :=
  ∀ s t : State, s.referencesLawful → step s = .next t → t.referencesLawful

/-- R145, the law of the device: rings lie within the 128 slots and share none, and a ring's count is at most its depth.
With it, a KEEP_NEW ring has nothing pending (R153). Every step keeps it. -/
def Obligations.RingsStayApartAndInBounds : Prop :=
  ∀ s t : State, s.ringsLawful → step s = .next t → t.ringsLawful

/-- R35, the law of the device: the jobs a port owns, orphans included, and its notices number at most 8. Every step keeps
it. -/
def Obligations.NoticeRoomIsNeverExceeded : Prop :=
  ∀ s t : State, s.noticeRoomLawful → step s = .next t → t.noticeRoomLawful

/-- R161, R166, R168, R181: a port is EXECUTING exactly while its request is pending, and a transaction in progress has its
select low; every response has at most 67 bytes of body, and a body only with OK or MERGED. Every step keeps each. -/
def Obligations.PortsStayConsistent : Prop :=
  ∀ s t : State, step s = .next t →
    (s.portsLawful → t.portsLawful) ∧ (s.responsesLawful → t.responsesLawful)

/-- R44, R89, R171, R175: entries, rings, notices and jobs that are no orphans belong to open sessions, such a job carries
its session's epoch, and an orphan is SENDING. Every step keeps it where jobs stand in their places. -/
def Obligations.SessionsOwnWhatTheyHold : Prop :=
  ∀ s t : State, s.arbiterLawful → s.sessionsLawful → step s = .next t → t.sessionsLawful

end Claims
end

