-- ==== Sys2Proof/Laws/Memory.lean ====
section
/-! SUPPORT. The frame memory: every operation keeps its canonical form, and what a byte reads as after each. -/

namespace Sys2Proof.Machine

/-! ### The canonical form -/

theorem Memory.wfFrom_mono {low low' : Nat} {m : List Host.Cell} (h : low' ≤ low) (hm : Memory.wfFrom low m = true) :
    Memory.wfFrom low' m = true := by
  cases m with
  | nil => rfl
  | cons c m =>
    simp only [Memory.wfFrom, Bool.and_eq_true, decide_eq_true_eq] at hm ⊢
    exact ⟨⟨⟨by omega, hm.1.1.2⟩, hm.1.2⟩, hm.2⟩

/-- An insertion at or above the least address keeps the form. -/
theorem Memory.wfFrom_insert {low a : Nat} {b : Byte} {m : List Host.Cell} (hl : low ≤ a) (ha : a < Config.memBytes)
    (hm : Memory.wfFrom low m = true) : Memory.wfFrom low (Memory.insert a b m) = true := by
  induction m generalizing low with
  | nil => by_cases hb : b = 0#8 <;> simp [Memory.insert, Memory.wfFrom, hb, hl, ha]
  | cons c m ih =>
    simp only [Memory.wfFrom, Bool.and_eq_true, decide_eq_true_eq] at hm
    obtain ⟨⟨⟨h1, h2⟩, h3⟩, h4⟩ := hm
    unfold Memory.insert
    by_cases hac : a < c.1
    · by_cases hb : b = 0#8
      · simpa [hac, hb, Memory.wfFrom, h1, h2, h4] using h3
      · simp only [hac, if_true, BitVec.ofNat_eq_ofNat, hb, if_false, Memory.wfFrom, Bool.and_eq_true,
          decide_eq_true_eq]
        exact ⟨⟨⟨hl, ha⟩, hb⟩, ⟨⟨hac, h2⟩, h3⟩, h4⟩
    · by_cases hae : a = c.1
      · by_cases hb : b = 0#8
        · simp only [hae, lt_irrefl, if_true, if_false, BitVec.ofNat_eq_ofNat, hb]
          exact Memory.wfFrom_mono (by omega) h4
        · subst hae
          simp [hb, Memory.wfFrom, h1, h2, h4]
      · simp only [hac, hae, if_false, Memory.wfFrom, Bool.and_eq_true, decide_eq_true_eq]
        exact ⟨⟨⟨h1, h2⟩, h3⟩, ih (by omega) h4⟩

theorem Memory.wf_write {a : Nat} {b : Byte} {m : List Host.Cell} (hm : Memory.wf m = true) :
    Memory.wf (Memory.write a b m) = true := by
  unfold Memory.write
  split
  · exact Memory.wfFrom_insert (Nat.zero_le a) ‹_› hm
  · exact hm

theorem Memory.wf_writeBytes {bs : List Byte} {a : Nat} {m : List Host.Cell} (hm : Memory.wf m = true) :
    Memory.wf (Memory.writeBytes a bs m) = true := by
  induction bs generalizing a m with
  | nil => exact hm
  | cons b bs ih => exact ih (Memory.wf_write hm)

theorem Memory.wf_writeSlot {k : Nat} {bs : List Byte} {m : List Host.Cell} (hm : Memory.wf m = true) :
    Memory.wf (Memory.writeSlot k bs m) = true := Memory.wf_writeBytes hm

theorem Memory.wf_clearSlot {k : Nat} {m : List Host.Cell} (hm : Memory.wf m = true) :
    Memory.wf (Memory.clearSlot k m) = true := Memory.wf_writeBytes hm

/-- The frame memory after full reset has the form. -/
theorem Memory.wf_reset : Memory.wf State.reset.mem = true := rfl

/-! ### Reading after a write -/

/-- No address below the least of a canonical list is listed. -/
theorem Memory.read_below {low a : Nat} {m : List Host.Cell} (h : a < low) (hm : Memory.wfFrom low m = true) :
    Memory.read a m = 0 := by
  induction m generalizing low with
  | nil => rfl
  | cons c m ih =>
    simp only [Memory.wfFrom, Bool.and_eq_true, decide_eq_true_eq] at hm
    obtain ⟨⟨⟨h1, _⟩, _⟩, h4⟩ := hm
    have : c.1 ≠ a := by omega
    simp only [Memory.read, this, if_false]
    exact ih (by omega) h4

theorem Memory.read_insert_ne {a a' : Nat} {b : Byte} {m : List Host.Cell} (h : a' ≠ a) :
    Memory.read a' (Memory.insert a b m) = Memory.read a' m := by
  induction m with
  | nil => by_cases hb : b = 0#8 <;> simp [Memory.insert, Memory.read, hb, Ne.symm h]
  | cons c m ih =>
    unfold Memory.insert
    by_cases hac : a < c.1
    · by_cases hb : b = 0#8 <;> simp [hac, hb, Memory.read, Ne.symm h]
    · by_cases hae : a = c.1
      · subst hae
        by_cases hb : b = 0#8 <;> simp [hb, Memory.read, Ne.symm h]
      · simp only [hac, hae, if_false, Memory.read, ih]

theorem Memory.read_insert_self {low a : Nat} {b : Byte} {m : List Host.Cell} (hm : Memory.wfFrom low m = true) :
    Memory.read a (Memory.insert a b m) = b := by
  induction m generalizing low with
  | nil => by_cases hb : b = 0#8 <;> simp [Memory.insert, Memory.read, hb]
  | cons c m ih =>
    have hw := hm
    simp only [Memory.wfFrom, Bool.and_eq_true, decide_eq_true_eq] at hm
    obtain ⟨⟨⟨_, _⟩, _⟩, h4⟩ := hm
    unfold Memory.insert
    by_cases hac : a < c.1
    · by_cases hb : b = 0#8
      · have : c.1 ≠ a := by omega
        simp only [hac, BitVec.ofNat_eq_ofNat, hb, if_true, Memory.read, this, if_false]
        exact Memory.read_below (by omega) h4
      · simp [hac, hb, Memory.read]
    · by_cases hae : a = c.1
      · subst hae
        by_cases hb : b = 0#8
        · simp only [BitVec.ofNat_eq_ofNat, hb, if_true, lt_irrefl, if_false]
          exact Memory.read_below (Nat.lt_succ_self _) h4
        · simp [hb, Memory.read]
      · have : c.1 ≠ a := fun e => hae e.symm
        simp only [hac, hae, if_false, Memory.read, this]
        exact ih h4

theorem Memory.read_write_ne {a a' : Nat} {b : Byte} {m : List Host.Cell} (h : a' ≠ a) :
    Memory.read a' (Memory.write a b m) = Memory.read a' m := by
  unfold Memory.write
  split
  · exact Memory.read_insert_ne h
  · rfl

theorem Memory.read_write_self {a : Nat} {b : Byte} {m : List Host.Cell} (ha : a < Config.memBytes)
    (hm : Memory.wf m = true) : Memory.read a (Memory.write a b m) = b := by
  simp only [Memory.write, ha, if_true]
  exact Memory.read_insert_self hm

theorem Memory.read_writeBytes_ne {bs : List Byte} {a a' : Nat} {m : List Host.Cell}
    (h : ¬(a ≤ a' ∧ a' < a + bs.length)) : Memory.read a' (Memory.writeBytes a bs m) = Memory.read a' m := by
  induction bs generalizing a m with
  | nil => rfl
  | cons b bs ih =>
    simp only [List.length_cons] at h
    rw [Memory.writeBytes, ih (by omega), Memory.read_write_ne (by omega)]

theorem Memory.read_writeBytes {bs : List Byte} {a : Nat} {m : List Host.Cell} (hm : Memory.wf m = true)
    (ha : a + bs.length ≤ Config.memBytes) (i : Nat) (hi : i < bs.length) :
    Memory.read (a + i) (Memory.writeBytes a bs m) = bs[i] := by
  induction bs generalizing a m i with
  | nil => simp at hi
  | cons b bs ih =>
    simp only [List.length_cons] at ha hi
    cases i with
    | zero =>
      rw [Memory.writeBytes, Memory.read_writeBytes_ne (by omega)]
      exact Memory.read_write_self (by omega) hm
    | succ i =>
      have := ih (a := a + 1) (Memory.wf_write (a := a) (b := b) hm) (by omega) i (by omega)
      simpa [Memory.writeBytes, Nat.add_assoc, Nat.add_comm 1 i] using this

/-- What a byte reads as after a write depends on what it read as before. -/
theorem Memory.read_write_congr {x a : Nat} {b : Byte} {m m' : List Host.Cell} (hm : Memory.wf m = true)
    (hm' : Memory.wf m' = true) (h : Memory.read x m' = Memory.read x m) :
    Memory.read x (Memory.write a b m') = Memory.read x (Memory.write a b m) := by
  by_cases hx : x = a
  · subst hx
    by_cases ha : x < Config.memBytes
    · rw [Memory.read_write_self ha hm, Memory.read_write_self ha hm']
    · simpa only [Memory.write, ha, if_false] using h
  · rw [Memory.read_write_ne hx, Memory.read_write_ne hx, h]

/-- The same for a run of bytes. -/
theorem Memory.read_writeBytes_congr {x a : Nat} {bs : List Byte} {m m' : List Host.Cell} (hm : Memory.wf m = true)
    (hm' : Memory.wf m' = true) (h : Memory.read x m' = Memory.read x m) :
    Memory.read x (Memory.writeBytes a bs m') = Memory.read x (Memory.writeBytes a bs m) := by
  induction bs generalizing a m m' with
  | nil => exact h
  | cons b bs ih => exact ih (Memory.wf_write hm) (Memory.wf_write hm') (Memory.read_write_congr hm hm' h)

@[simp] theorem Memory.readBytes_length {m : List Host.Cell} {a n : Nat} : (Memory.readBytes m a n).length = n := by
  induction n generalizing a with
  | zero => rfl
  | succ n ih => simp [Memory.readBytes, ih]

theorem Memory.readBytes_getElem {m : List Host.Cell} {a n i : Nat} (hi : i < (Memory.readBytes m a n).length) :
    (Memory.readBytes m a n)[i] = Memory.read (a + i) m := by
  induction n generalizing a i with
  | zero => simp [Memory.readBytes] at hi
  | succ n ih =>
    cases i with
    | zero => rfl
    | succ i =>
      simp only [Memory.readBytes, List.getElem_cons_succ, ih]
      congr 1
      omega

/-- A slot reads as it was read before where none of its 16 bytes changed. -/
theorem Memory.readSlot_congr {k : Nat} {m m' : List Host.Cell}
    (h : ∀ a, slotAddress k ≤ a → a < slotAddress k + 16 → Memory.read a m' = Memory.read a m) :
    Memory.readSlot k m' = Memory.readSlot k m := by
  apply List.ext_getElem
  · simp [Memory.readSlot]
  · intro i h1 h2
    have hi : i < 16 := by simpa [Memory.readSlot, Config.slotBytes] using h1
    simp only [Memory.readSlot, Memory.readBytes_getElem]
    exact h _ (by omega) (by omega)

/-- A slot written with 16 bytes reads as those bytes. -/
theorem Memory.readSlot_writeSlot {k : Nat} {bs : List Byte} {m : List Host.Cell} (hm : Memory.wf m = true)
    (hk : k < Config.memSlots) (hb : bs.length = 16) : Memory.readSlot k (Memory.writeSlot k bs m) = bs := by
  have hk' : slotAddress k + 16 ≤ Config.memBytes := by
    simp only [slotAddress, Config.slotBytes, Config.memBytes, Config.memSlots] at *; omega
  have ht : bs.take Config.slotBytes = bs := List.take_of_length_le (by simp [Config.slotBytes, hb])
  apply List.ext_getElem
  · simp [Memory.readSlot, Config.slotBytes, hb]
  · intro i h1 h2
    simp only [Memory.readSlot, Memory.readBytes_getElem, Memory.writeSlot, ht]
    exact Memory.read_writeBytes hm (by omega) i h2

/-- A write of a slot leaves every other address. -/
theorem Memory.read_writeSlot_ne {k a : Nat} {bs : List Byte} {m : List Host.Cell}
    (h : ¬(slotAddress k ≤ a ∧ a < slotAddress k + 16)) :
    Memory.read a (Memory.writeSlot k bs m) = Memory.read a m := by
  apply Memory.read_writeBytes_ne
  have : (bs.take Config.slotBytes).length ≤ 16 := by simp [Config.slotBytes]
  omega

/-- A cleared slot leaves every other address. -/
theorem Memory.read_clearSlot_ne {k a : Nat} {m : List Host.Cell}
    (h : ¬(slotAddress k ≤ a ∧ a < slotAddress k + 16)) :
    Memory.read a (Memory.clearSlot k m) = Memory.read a m := by
  apply Memory.read_writeBytes_ne
  simpa [Config.slotBytes] using h

end Sys2Proof.Machine
end

