-- ==== Sys2Proof/Laws/State.lean ====
section
/-! SUPPORT. The fields of State after each update: which an update leaves, and what the one it changes becomes. -/

namespace Sys2Proof.Machine

/-! ### modifyJob -/

@[simp] theorem State.modifyJob_tickCount (s : State) (i : SlotId) (f : Job → Job) : (s.modifyJob i f).tickCount = s.tickCount := rfl
@[simp] theorem State.modifyJob_ms (s : State) (i : SlotId) (f : Job → Job) : (s.modifyJob i f).ms = s.ms := rfl
@[simp] theorem State.modifyJob_stn (s : State) (i : SlotId) (f : Job → Job) : (s.modifyJob i f).stn = s.stn := rfl
@[simp] theorem State.modifyJob_profiles (s : State) (i : SlotId) (f : Job → Job) : (s.modifyJob i f).profiles = s.profiles := rfl
@[simp] theorem State.modifyJob_la (s : State) (i : SlotId) (f : Job → Job) : (s.modifyJob i f).la = s.la := rfl
@[simp] theorem State.modifyJob_tx (s : State) (i : SlotId) (f : Job → Job) : (s.modifyJob i f).tx = s.tx := rfl
@[simp] theorem State.modifyJob_rx (s : State) (i : SlotId) (f : Job → Job) : (s.modifyJob i f).rx = s.rx := rfl
@[simp] theorem State.modifyJob_entries (s : State) (i : SlotId) (f : Job → Job) : (s.modifyJob i f).entries = s.entries := rfl
@[simp] theorem State.modifyJob_seqs (s : State) (i : SlotId) (f : Job → Job) : (s.modifyJob i f).seqs = s.seqs := rfl
@[simp] theorem State.modifyJob_mem (s : State) (i : SlotId) (f : Job → Job) : (s.modifyJob i f).mem = s.mem := rfl
@[simp] theorem State.modifyJob_rings (s : State) (i : SlotId) (f : Job → Job) : (s.modifyJob i f).rings = s.rings := rfl
@[simp] theorem State.modifyJob_ports (s : State) (i : SlotId) (f : Job → Job) : (s.modifyJob i f).ports = s.ports := rfl
@[simp] theorem State.modifyJob_pending (s : State) (i : SlotId) (f : Job → Job) : (s.modifyJob i f).pending = s.pending := rfl
@[simp] theorem State.modifyJob_profile (s : State) (i : SlotId) (f : Job → Job) (k : ProfileId) : (s.modifyJob i f).profile k = s.profile k := rfl
@[simp] theorem State.modifyJob_port (s : State) (i : SlotId) (f : Job → Job) (k : Port) : (s.modifyJob i f).port k = s.port k := rfl
@[simp] theorem State.modifyJob_ring (s : State) (i : SlotId) (f : Job → Job) (k : Port) : (s.modifyJob i f).ring k = s.ring k := rfl
@[simp] theorem State.modifyJob_entry (s : State) (i : SlotId) (f : Job → Job) (k : EntryId) : (s.modifyJob i f).entry k = s.entry k := rfl

/-! ### freeSlot -/

@[simp] theorem State.freeSlot_tickCount (s : State) (i : SlotId) : (s.freeSlot i).tickCount = s.tickCount := rfl
@[simp] theorem State.freeSlot_ms (s : State) (i : SlotId) : (s.freeSlot i).ms = s.ms := rfl
@[simp] theorem State.freeSlot_stn (s : State) (i : SlotId) : (s.freeSlot i).stn = s.stn := rfl
@[simp] theorem State.freeSlot_profiles (s : State) (i : SlotId) : (s.freeSlot i).profiles = s.profiles := rfl
@[simp] theorem State.freeSlot_la (s : State) (i : SlotId) : (s.freeSlot i).la = s.la := rfl
@[simp] theorem State.freeSlot_tx (s : State) (i : SlotId) : (s.freeSlot i).tx = s.tx := rfl
@[simp] theorem State.freeSlot_rx (s : State) (i : SlotId) : (s.freeSlot i).rx = s.rx := rfl
@[simp] theorem State.freeSlot_entries (s : State) (i : SlotId) : (s.freeSlot i).entries = s.entries := rfl
@[simp] theorem State.freeSlot_seqs (s : State) (i : SlotId) : (s.freeSlot i).seqs = s.seqs := rfl
@[simp] theorem State.freeSlot_mem (s : State) (i : SlotId) : (s.freeSlot i).mem = s.mem := rfl
@[simp] theorem State.freeSlot_rings (s : State) (i : SlotId) : (s.freeSlot i).rings = s.rings := rfl
@[simp] theorem State.freeSlot_ports (s : State) (i : SlotId) : (s.freeSlot i).ports = s.ports := rfl
@[simp] theorem State.freeSlot_pending (s : State) (i : SlotId) : (s.freeSlot i).pending = s.pending := rfl
@[simp] theorem State.freeSlot_profile (s : State) (i : SlotId) (k : ProfileId) : (s.freeSlot i).profile k = s.profile k := rfl
@[simp] theorem State.freeSlot_port (s : State) (i : SlotId) (k : Port) : (s.freeSlot i).port k = s.port k := rfl
@[simp] theorem State.freeSlot_ring (s : State) (i : SlotId) (k : Port) : (s.freeSlot i).ring k = s.ring k := rfl
@[simp] theorem State.freeSlot_entry (s : State) (i : SlotId) (k : EntryId) : (s.freeSlot i).entry k = s.entry k := rfl

/-! ### fillSlot -/

@[simp] theorem State.fillSlot_tickCount (s : State) (i : SlotId) (j : Job) : (s.fillSlot i j).tickCount = s.tickCount := rfl
@[simp] theorem State.fillSlot_ms (s : State) (i : SlotId) (j : Job) : (s.fillSlot i j).ms = s.ms := rfl
@[simp] theorem State.fillSlot_stn (s : State) (i : SlotId) (j : Job) : (s.fillSlot i j).stn = s.stn := rfl
@[simp] theorem State.fillSlot_profiles (s : State) (i : SlotId) (j : Job) : (s.fillSlot i j).profiles = s.profiles := rfl
@[simp] theorem State.fillSlot_la (s : State) (i : SlotId) (j : Job) : (s.fillSlot i j).la = s.la := rfl
@[simp] theorem State.fillSlot_tx (s : State) (i : SlotId) (j : Job) : (s.fillSlot i j).tx = s.tx := rfl
@[simp] theorem State.fillSlot_rx (s : State) (i : SlotId) (j : Job) : (s.fillSlot i j).rx = s.rx := rfl
@[simp] theorem State.fillSlot_entries (s : State) (i : SlotId) (j : Job) : (s.fillSlot i j).entries = s.entries := rfl
@[simp] theorem State.fillSlot_seqs (s : State) (i : SlotId) (j : Job) : (s.fillSlot i j).seqs = s.seqs := rfl
@[simp] theorem State.fillSlot_mem (s : State) (i : SlotId) (j : Job) : (s.fillSlot i j).mem = s.mem := rfl
@[simp] theorem State.fillSlot_rings (s : State) (i : SlotId) (j : Job) : (s.fillSlot i j).rings = s.rings := rfl
@[simp] theorem State.fillSlot_ports (s : State) (i : SlotId) (j : Job) : (s.fillSlot i j).ports = s.ports := rfl
@[simp] theorem State.fillSlot_pending (s : State) (i : SlotId) (j : Job) : (s.fillSlot i j).pending = s.pending := rfl
@[simp] theorem State.fillSlot_profile (s : State) (i : SlotId) (j : Job) (k : ProfileId) : (s.fillSlot i j).profile k = s.profile k := rfl
@[simp] theorem State.fillSlot_port (s : State) (i : SlotId) (j : Job) (k : Port) : (s.fillSlot i j).port k = s.port k := rfl
@[simp] theorem State.fillSlot_ring (s : State) (i : SlotId) (j : Job) (k : Port) : (s.fillSlot i j).ring k = s.ring k := rfl
@[simp] theorem State.fillSlot_entry (s : State) (i : SlotId) (j : Job) (k : EntryId) : (s.fillSlot i j).entry k = s.entry k := rfl

/-! ### modifyPort -/

@[simp] theorem State.modifyPort_tickCount (s : State) (p : Port) (f : HostPort → HostPort) : (s.modifyPort p f).tickCount = s.tickCount := rfl
@[simp] theorem State.modifyPort_ms (s : State) (p : Port) (f : HostPort → HostPort) : (s.modifyPort p f).ms = s.ms := rfl
@[simp] theorem State.modifyPort_stn (s : State) (p : Port) (f : HostPort → HostPort) : (s.modifyPort p f).stn = s.stn := rfl
@[simp] theorem State.modifyPort_profiles (s : State) (p : Port) (f : HostPort → HostPort) : (s.modifyPort p f).profiles = s.profiles := rfl
@[simp] theorem State.modifyPort_jobs (s : State) (p : Port) (f : HostPort → HostPort) : (s.modifyPort p f).jobs = s.jobs := rfl
@[simp] theorem State.modifyPort_la (s : State) (p : Port) (f : HostPort → HostPort) : (s.modifyPort p f).la = s.la := rfl
@[simp] theorem State.modifyPort_tx (s : State) (p : Port) (f : HostPort → HostPort) : (s.modifyPort p f).tx = s.tx := rfl
@[simp] theorem State.modifyPort_rx (s : State) (p : Port) (f : HostPort → HostPort) : (s.modifyPort p f).rx = s.rx := rfl
@[simp] theorem State.modifyPort_entries (s : State) (p : Port) (f : HostPort → HostPort) : (s.modifyPort p f).entries = s.entries := rfl
@[simp] theorem State.modifyPort_seqs (s : State) (p : Port) (f : HostPort → HostPort) : (s.modifyPort p f).seqs = s.seqs := rfl
@[simp] theorem State.modifyPort_mem (s : State) (p : Port) (f : HostPort → HostPort) : (s.modifyPort p f).mem = s.mem := rfl
@[simp] theorem State.modifyPort_rings (s : State) (p : Port) (f : HostPort → HostPort) : (s.modifyPort p f).rings = s.rings := rfl
@[simp] theorem State.modifyPort_pending (s : State) (p : Port) (f : HostPort → HostPort) : (s.modifyPort p f).pending = s.pending := rfl
@[simp] theorem State.modifyPort_job (s : State) (p : Port) (f : HostPort → HostPort) (k : SlotId) : (s.modifyPort p f).job k = s.job k := rfl
@[simp] theorem State.modifyPort_ticket (s : State) (p : Port) (f : HostPort → HostPort) (k : SlotId) : (s.modifyPort p f).ticket k = s.ticket k := rfl
@[simp] theorem State.modifyPort_profile (s : State) (p : Port) (f : HostPort → HostPort) (k : ProfileId) : (s.modifyPort p f).profile k = s.profile k := rfl
@[simp] theorem State.modifyPort_ring (s : State) (p : Port) (f : HostPort → HostPort) (k : Port) : (s.modifyPort p f).ring k = s.ring k := rfl
@[simp] theorem State.modifyPort_entry (s : State) (p : Port) (f : HostPort → HostPort) (k : EntryId) : (s.modifyPort p f).entry k = s.entry k := rfl

/-! ### setRing -/

@[simp] theorem State.setRing_tickCount (s : State) (p : Port) (r : Option Ring) : (s.setRing p r).tickCount = s.tickCount := rfl
@[simp] theorem State.setRing_ms (s : State) (p : Port) (r : Option Ring) : (s.setRing p r).ms = s.ms := rfl
@[simp] theorem State.setRing_stn (s : State) (p : Port) (r : Option Ring) : (s.setRing p r).stn = s.stn := rfl
@[simp] theorem State.setRing_profiles (s : State) (p : Port) (r : Option Ring) : (s.setRing p r).profiles = s.profiles := rfl
@[simp] theorem State.setRing_jobs (s : State) (p : Port) (r : Option Ring) : (s.setRing p r).jobs = s.jobs := rfl
@[simp] theorem State.setRing_la (s : State) (p : Port) (r : Option Ring) : (s.setRing p r).la = s.la := rfl
@[simp] theorem State.setRing_tx (s : State) (p : Port) (r : Option Ring) : (s.setRing p r).tx = s.tx := rfl
@[simp] theorem State.setRing_rx (s : State) (p : Port) (r : Option Ring) : (s.setRing p r).rx = s.rx := rfl
@[simp] theorem State.setRing_entries (s : State) (p : Port) (r : Option Ring) : (s.setRing p r).entries = s.entries := rfl
@[simp] theorem State.setRing_seqs (s : State) (p : Port) (r : Option Ring) : (s.setRing p r).seqs = s.seqs := rfl
@[simp] theorem State.setRing_mem (s : State) (p : Port) (r : Option Ring) : (s.setRing p r).mem = s.mem := rfl
@[simp] theorem State.setRing_ports (s : State) (p : Port) (r : Option Ring) : (s.setRing p r).ports = s.ports := rfl
@[simp] theorem State.setRing_pending (s : State) (p : Port) (r : Option Ring) : (s.setRing p r).pending = s.pending := rfl
@[simp] theorem State.setRing_job (s : State) (p : Port) (r : Option Ring) (k : SlotId) : (s.setRing p r).job k = s.job k := rfl
@[simp] theorem State.setRing_ticket (s : State) (p : Port) (r : Option Ring) (k : SlotId) : (s.setRing p r).ticket k = s.ticket k := rfl
@[simp] theorem State.setRing_profile (s : State) (p : Port) (r : Option Ring) (k : ProfileId) : (s.setRing p r).profile k = s.profile k := rfl
@[simp] theorem State.setRing_port (s : State) (p : Port) (r : Option Ring) (k : Port) : (s.setRing p r).port k = s.port k := rfl
@[simp] theorem State.setRing_entry (s : State) (p : Port) (r : Option Ring) (k : EntryId) : (s.setRing p r).entry k = s.entry k := rfl

/-! ### setEntry -/

@[simp] theorem State.setEntry_tickCount (s : State) (e : EntryId) (x : Option Entry) : (s.setEntry e x).tickCount = s.tickCount := rfl
@[simp] theorem State.setEntry_ms (s : State) (e : EntryId) (x : Option Entry) : (s.setEntry e x).ms = s.ms := rfl
@[simp] theorem State.setEntry_stn (s : State) (e : EntryId) (x : Option Entry) : (s.setEntry e x).stn = s.stn := rfl
@[simp] theorem State.setEntry_profiles (s : State) (e : EntryId) (x : Option Entry) : (s.setEntry e x).profiles = s.profiles := rfl
@[simp] theorem State.setEntry_jobs (s : State) (e : EntryId) (x : Option Entry) : (s.setEntry e x).jobs = s.jobs := rfl
@[simp] theorem State.setEntry_la (s : State) (e : EntryId) (x : Option Entry) : (s.setEntry e x).la = s.la := rfl
@[simp] theorem State.setEntry_tx (s : State) (e : EntryId) (x : Option Entry) : (s.setEntry e x).tx = s.tx := rfl
@[simp] theorem State.setEntry_rx (s : State) (e : EntryId) (x : Option Entry) : (s.setEntry e x).rx = s.rx := rfl
@[simp] theorem State.setEntry_seqs (s : State) (e : EntryId) (x : Option Entry) : (s.setEntry e x).seqs = s.seqs := rfl
@[simp] theorem State.setEntry_mem (s : State) (e : EntryId) (x : Option Entry) : (s.setEntry e x).mem = s.mem := rfl
@[simp] theorem State.setEntry_rings (s : State) (e : EntryId) (x : Option Entry) : (s.setEntry e x).rings = s.rings := rfl
@[simp] theorem State.setEntry_ports (s : State) (e : EntryId) (x : Option Entry) : (s.setEntry e x).ports = s.ports := rfl
@[simp] theorem State.setEntry_pending (s : State) (e : EntryId) (x : Option Entry) : (s.setEntry e x).pending = s.pending := rfl
@[simp] theorem State.setEntry_job (s : State) (e : EntryId) (x : Option Entry) (k : SlotId) : (s.setEntry e x).job k = s.job k := rfl
@[simp] theorem State.setEntry_ticket (s : State) (e : EntryId) (x : Option Entry) (k : SlotId) : (s.setEntry e x).ticket k = s.ticket k := rfl
@[simp] theorem State.setEntry_profile (s : State) (e : EntryId) (x : Option Entry) (k : ProfileId) : (s.setEntry e x).profile k = s.profile k := rfl
@[simp] theorem State.setEntry_port (s : State) (e : EntryId) (x : Option Entry) (k : Port) : (s.setEntry e x).port k = s.port k := rfl
@[simp] theorem State.setEntry_ring (s : State) (e : EntryId) (x : Option Entry) (k : Port) : (s.setEntry e x).ring k = s.ring k := rfl

/-! ### setProfile -/

@[simp] theorem State.setProfile_tickCount (s : State) (q : ProfileId) (x : Option Profile) : (s.setProfile q x).tickCount = s.tickCount := rfl
@[simp] theorem State.setProfile_ms (s : State) (q : ProfileId) (x : Option Profile) : (s.setProfile q x).ms = s.ms := rfl
@[simp] theorem State.setProfile_stn (s : State) (q : ProfileId) (x : Option Profile) : (s.setProfile q x).stn = s.stn := rfl
@[simp] theorem State.setProfile_jobs (s : State) (q : ProfileId) (x : Option Profile) : (s.setProfile q x).jobs = s.jobs := rfl
@[simp] theorem State.setProfile_la (s : State) (q : ProfileId) (x : Option Profile) : (s.setProfile q x).la = s.la := rfl
@[simp] theorem State.setProfile_tx (s : State) (q : ProfileId) (x : Option Profile) : (s.setProfile q x).tx = s.tx := rfl
@[simp] theorem State.setProfile_rx (s : State) (q : ProfileId) (x : Option Profile) : (s.setProfile q x).rx = s.rx := rfl
@[simp] theorem State.setProfile_entries (s : State) (q : ProfileId) (x : Option Profile) : (s.setProfile q x).entries = s.entries := rfl
@[simp] theorem State.setProfile_seqs (s : State) (q : ProfileId) (x : Option Profile) : (s.setProfile q x).seqs = s.seqs := rfl
@[simp] theorem State.setProfile_mem (s : State) (q : ProfileId) (x : Option Profile) : (s.setProfile q x).mem = s.mem := rfl
@[simp] theorem State.setProfile_rings (s : State) (q : ProfileId) (x : Option Profile) : (s.setProfile q x).rings = s.rings := rfl
@[simp] theorem State.setProfile_ports (s : State) (q : ProfileId) (x : Option Profile) : (s.setProfile q x).ports = s.ports := rfl
@[simp] theorem State.setProfile_pending (s : State) (q : ProfileId) (x : Option Profile) : (s.setProfile q x).pending = s.pending := rfl
@[simp] theorem State.setProfile_job (s : State) (q : ProfileId) (x : Option Profile) (k : SlotId) : (s.setProfile q x).job k = s.job k := rfl
@[simp] theorem State.setProfile_ticket (s : State) (q : ProfileId) (x : Option Profile) (k : SlotId) : (s.setProfile q x).ticket k = s.ticket k := rfl
@[simp] theorem State.setProfile_port (s : State) (q : ProfileId) (x : Option Profile) (k : Port) : (s.setProfile q x).port k = s.port k := rfl
@[simp] theorem State.setProfile_ring (s : State) (q : ProfileId) (x : Option Profile) (k : Port) : (s.setProfile q x).ring k = s.ring k := rfl
@[simp] theorem State.setProfile_entry (s : State) (q : ProfileId) (x : Option Profile) (k : EntryId) : (s.setProfile q x).entry k = s.entry k := rfl

/-! ### attend -/

@[simp] theorem State.attend_tickCount (s : State) (p : Port) : (s.attend p).tickCount = s.tickCount := rfl
@[simp] theorem State.attend_ms (s : State) (p : Port) : (s.attend p).ms = s.ms := rfl
@[simp] theorem State.attend_stn (s : State) (p : Port) : (s.attend p).stn = s.stn := rfl
@[simp] theorem State.attend_profiles (s : State) (p : Port) : (s.attend p).profiles = s.profiles := rfl
@[simp] theorem State.attend_jobs (s : State) (p : Port) : (s.attend p).jobs = s.jobs := rfl
@[simp] theorem State.attend_la (s : State) (p : Port) : (s.attend p).la = s.la := rfl
@[simp] theorem State.attend_tx (s : State) (p : Port) : (s.attend p).tx = s.tx := rfl
@[simp] theorem State.attend_rx (s : State) (p : Port) : (s.attend p).rx = s.rx := rfl
@[simp] theorem State.attend_entries (s : State) (p : Port) : (s.attend p).entries = s.entries := rfl
@[simp] theorem State.attend_seqs (s : State) (p : Port) : (s.attend p).seqs = s.seqs := rfl
@[simp] theorem State.attend_mem (s : State) (p : Port) : (s.attend p).mem = s.mem := rfl
@[simp] theorem State.attend_rings (s : State) (p : Port) : (s.attend p).rings = s.rings := rfl
@[simp] theorem State.attend_pending (s : State) (p : Port) : (s.attend p).pending = s.pending := rfl
@[simp] theorem State.attend_job (s : State) (p : Port) (k : SlotId) : (s.attend p).job k = s.job k := rfl
@[simp] theorem State.attend_ticket (s : State) (p : Port) (k : SlotId) : (s.attend p).ticket k = s.ticket k := rfl
@[simp] theorem State.attend_profile (s : State) (p : Port) (k : ProfileId) : (s.attend p).profile k = s.profile k := rfl
@[simp] theorem State.attend_ring (s : State) (p : Port) (k : Port) : (s.attend p).ring k = s.ring k := rfl
@[simp] theorem State.attend_entry (s : State) (p : Port) (k : EntryId) : (s.attend p).entry k = s.entry k := rfl

/-! ### setDecoder -/

@[simp] theorem State.setDecoder_tickCount (s : State) (d : Decoder) : (s.setDecoder d).tickCount = s.tickCount := rfl
@[simp] theorem State.setDecoder_ms (s : State) (d : Decoder) : (s.setDecoder d).ms = s.ms := rfl
@[simp] theorem State.setDecoder_stn (s : State) (d : Decoder) : (s.setDecoder d).stn = s.stn := rfl
@[simp] theorem State.setDecoder_profiles (s : State) (d : Decoder) : (s.setDecoder d).profiles = s.profiles := rfl
@[simp] theorem State.setDecoder_jobs (s : State) (d : Decoder) : (s.setDecoder d).jobs = s.jobs := rfl
@[simp] theorem State.setDecoder_la (s : State) (d : Decoder) : (s.setDecoder d).la = s.la := rfl
@[simp] theorem State.setDecoder_tx (s : State) (d : Decoder) : (s.setDecoder d).tx = s.tx := rfl
@[simp] theorem State.setDecoder_entries (s : State) (d : Decoder) : (s.setDecoder d).entries = s.entries := rfl
@[simp] theorem State.setDecoder_seqs (s : State) (d : Decoder) : (s.setDecoder d).seqs = s.seqs := rfl
@[simp] theorem State.setDecoder_mem (s : State) (d : Decoder) : (s.setDecoder d).mem = s.mem := rfl
@[simp] theorem State.setDecoder_rings (s : State) (d : Decoder) : (s.setDecoder d).rings = s.rings := rfl
@[simp] theorem State.setDecoder_ports (s : State) (d : Decoder) : (s.setDecoder d).ports = s.ports := rfl
@[simp] theorem State.setDecoder_pending (s : State) (d : Decoder) : (s.setDecoder d).pending = s.pending := rfl
@[simp] theorem State.setDecoder_job (s : State) (d : Decoder) (k : SlotId) : (s.setDecoder d).job k = s.job k := rfl
@[simp] theorem State.setDecoder_ticket (s : State) (d : Decoder) (k : SlotId) : (s.setDecoder d).ticket k = s.ticket k := rfl
@[simp] theorem State.setDecoder_profile (s : State) (d : Decoder) (k : ProfileId) : (s.setDecoder d).profile k = s.profile k := rfl
@[simp] theorem State.setDecoder_port (s : State) (d : Decoder) (k : Port) : (s.setDecoder d).port k = s.port k := rfl
@[simp] theorem State.setDecoder_ring (s : State) (d : Decoder) (k : Port) : (s.setDecoder d).ring k = s.ring k := rfl
@[simp] theorem State.setDecoder_entry (s : State) (d : Decoder) (k : EntryId) : (s.setDecoder d).entry k = s.entry k := rfl

/-! ### startGuard -/

@[simp] theorem State.startGuard_tickCount (s : State) (i : SlotId) : (s.startGuard i).tickCount = s.tickCount := rfl
@[simp] theorem State.startGuard_ms (s : State) (i : SlotId) : (s.startGuard i).ms = s.ms := rfl
@[simp] theorem State.startGuard_stn (s : State) (i : SlotId) : (s.startGuard i).stn = s.stn := rfl
@[simp] theorem State.startGuard_profiles (s : State) (i : SlotId) : (s.startGuard i).profiles = s.profiles := rfl
@[simp] theorem State.startGuard_jobs (s : State) (i : SlotId) : (s.startGuard i).jobs = s.jobs := rfl
@[simp] theorem State.startGuard_tx (s : State) (i : SlotId) : (s.startGuard i).tx = s.tx := rfl
@[simp] theorem State.startGuard_rx (s : State) (i : SlotId) : (s.startGuard i).rx = s.rx := rfl
@[simp] theorem State.startGuard_entries (s : State) (i : SlotId) : (s.startGuard i).entries = s.entries := rfl
@[simp] theorem State.startGuard_seqs (s : State) (i : SlotId) : (s.startGuard i).seqs = s.seqs := rfl
@[simp] theorem State.startGuard_mem (s : State) (i : SlotId) : (s.startGuard i).mem = s.mem := rfl
@[simp] theorem State.startGuard_rings (s : State) (i : SlotId) : (s.startGuard i).rings = s.rings := rfl
@[simp] theorem State.startGuard_ports (s : State) (i : SlotId) : (s.startGuard i).ports = s.ports := rfl
@[simp] theorem State.startGuard_pending (s : State) (i : SlotId) : (s.startGuard i).pending = s.pending := rfl
@[simp] theorem State.startGuard_job (s : State) (i : SlotId) (k : SlotId) : (s.startGuard i).job k = s.job k := rfl
@[simp] theorem State.startGuard_ticket (s : State) (i : SlotId) (k : SlotId) : (s.startGuard i).ticket k = s.ticket k := rfl
@[simp] theorem State.startGuard_profile (s : State) (i : SlotId) (k : ProfileId) : (s.startGuard i).profile k = s.profile k := rfl
@[simp] theorem State.startGuard_port (s : State) (i : SlotId) (k : Port) : (s.startGuard i).port k = s.port k := rfl
@[simp] theorem State.startGuard_ring (s : State) (i : SlotId) (k : Port) : (s.startGuard i).ring k = s.ring k := rfl
@[simp] theorem State.startGuard_entry (s : State) (i : SlotId) (k : EntryId) : (s.startGuard i).entry k = s.entry k := rfl

/-! ### vacate -/

@[simp] theorem State.vacate_tickCount (s : State) (i : SlotId) : (s.vacate i).tickCount = s.tickCount := rfl
@[simp] theorem State.vacate_ms (s : State) (i : SlotId) : (s.vacate i).ms = s.ms := rfl
@[simp] theorem State.vacate_stn (s : State) (i : SlotId) : (s.vacate i).stn = s.stn := rfl
@[simp] theorem State.vacate_profiles (s : State) (i : SlotId) : (s.vacate i).profiles = s.profiles := rfl
@[simp] theorem State.vacate_jobs (s : State) (i : SlotId) : (s.vacate i).jobs = s.jobs := rfl
@[simp] theorem State.vacate_tx (s : State) (i : SlotId) : (s.vacate i).tx = s.tx := rfl
@[simp] theorem State.vacate_rx (s : State) (i : SlotId) : (s.vacate i).rx = s.rx := rfl
@[simp] theorem State.vacate_entries (s : State) (i : SlotId) : (s.vacate i).entries = s.entries := rfl
@[simp] theorem State.vacate_seqs (s : State) (i : SlotId) : (s.vacate i).seqs = s.seqs := rfl
@[simp] theorem State.vacate_mem (s : State) (i : SlotId) : (s.vacate i).mem = s.mem := rfl
@[simp] theorem State.vacate_rings (s : State) (i : SlotId) : (s.vacate i).rings = s.rings := rfl
@[simp] theorem State.vacate_ports (s : State) (i : SlotId) : (s.vacate i).ports = s.ports := rfl
@[simp] theorem State.vacate_pending (s : State) (i : SlotId) : (s.vacate i).pending = s.pending := rfl
@[simp] theorem State.vacate_job (s : State) (i : SlotId) (k : SlotId) : (s.vacate i).job k = s.job k := rfl
@[simp] theorem State.vacate_ticket (s : State) (i : SlotId) (k : SlotId) : (s.vacate i).ticket k = s.ticket k := rfl
@[simp] theorem State.vacate_profile (s : State) (i : SlotId) (k : ProfileId) : (s.vacate i).profile k = s.profile k := rfl
@[simp] theorem State.vacate_port (s : State) (i : SlotId) (k : Port) : (s.vacate i).port k = s.port k := rfl
@[simp] theorem State.vacate_ring (s : State) (i : SlotId) (k : Port) : (s.vacate i).ring k = s.ring k := rfl
@[simp] theorem State.vacate_entry (s : State) (i : SlotId) (k : EntryId) : (s.vacate i).entry k = s.entry k := rfl

/-! ### stopDrive -/

@[simp] theorem State.stopDrive_tickCount (s : State) : (s.stopDrive).tickCount = s.tickCount := rfl
@[simp] theorem State.stopDrive_ms (s : State) : (s.stopDrive).ms = s.ms := rfl
@[simp] theorem State.stopDrive_stn (s : State) : (s.stopDrive).stn = s.stn := rfl
@[simp] theorem State.stopDrive_profiles (s : State) : (s.stopDrive).profiles = s.profiles := rfl
@[simp] theorem State.stopDrive_jobs (s : State) : (s.stopDrive).jobs = s.jobs := rfl
@[simp] theorem State.stopDrive_la (s : State) : (s.stopDrive).la = s.la := rfl
@[simp] theorem State.stopDrive_entries (s : State) : (s.stopDrive).entries = s.entries := rfl
@[simp] theorem State.stopDrive_seqs (s : State) : (s.stopDrive).seqs = s.seqs := rfl
@[simp] theorem State.stopDrive_mem (s : State) : (s.stopDrive).mem = s.mem := rfl
@[simp] theorem State.stopDrive_rings (s : State) : (s.stopDrive).rings = s.rings := rfl
@[simp] theorem State.stopDrive_ports (s : State) : (s.stopDrive).ports = s.ports := rfl
@[simp] theorem State.stopDrive_pending (s : State) : (s.stopDrive).pending = s.pending := rfl
@[simp] theorem State.stopDrive_job (s : State) (k : SlotId) : (s.stopDrive).job k = s.job k := rfl
@[simp] theorem State.stopDrive_ticket (s : State) (k : SlotId) : (s.stopDrive).ticket k = s.ticket k := rfl
@[simp] theorem State.stopDrive_profile (s : State) (k : ProfileId) : (s.stopDrive).profile k = s.profile k := rfl
@[simp] theorem State.stopDrive_port (s : State) (k : Port) : (s.stopDrive).port k = s.port k := rfl
@[simp] theorem State.stopDrive_ring (s : State) (k : Port) : (s.stopDrive).ring k = s.ring k := rfl
@[simp] theorem State.stopDrive_entry (s : State) (k : EntryId) : (s.stopDrive).entry k = s.entry k := rfl

/-! ### turnToMark -/

@[simp] theorem State.turnToMark_tickCount (s : State) : (s.turnToMark).tickCount = s.tickCount := rfl
@[simp] theorem State.turnToMark_ms (s : State) : (s.turnToMark).ms = s.ms := rfl
@[simp] theorem State.turnToMark_stn (s : State) : (s.turnToMark).stn = s.stn := rfl
@[simp] theorem State.turnToMark_profiles (s : State) : (s.turnToMark).profiles = s.profiles := rfl
@[simp] theorem State.turnToMark_jobs (s : State) : (s.turnToMark).jobs = s.jobs := rfl
@[simp] theorem State.turnToMark_tx (s : State) : (s.turnToMark).tx = s.tx := rfl
@[simp] theorem State.turnToMark_entries (s : State) : (s.turnToMark).entries = s.entries := rfl
@[simp] theorem State.turnToMark_seqs (s : State) : (s.turnToMark).seqs = s.seqs := rfl
@[simp] theorem State.turnToMark_mem (s : State) : (s.turnToMark).mem = s.mem := rfl
@[simp] theorem State.turnToMark_rings (s : State) : (s.turnToMark).rings = s.rings := rfl
@[simp] theorem State.turnToMark_ports (s : State) : (s.turnToMark).ports = s.ports := rfl
@[simp] theorem State.turnToMark_pending (s : State) : (s.turnToMark).pending = s.pending := rfl
@[simp] theorem State.turnToMark_job (s : State) (k : SlotId) : (s.turnToMark).job k = s.job k := rfl
@[simp] theorem State.turnToMark_ticket (s : State) (k : SlotId) : (s.turnToMark).ticket k = s.ticket k := rfl
@[simp] theorem State.turnToMark_profile (s : State) (k : ProfileId) : (s.turnToMark).profile k = s.profile k := rfl
@[simp] theorem State.turnToMark_port (s : State) (k : Port) : (s.turnToMark).port k = s.port k := rfl
@[simp] theorem State.turnToMark_ring (s : State) (k : Port) : (s.turnToMark).ring k = s.ring k := rfl
@[simp] theorem State.turnToMark_entry (s : State) (k : EntryId) : (s.turnToMark).entry k = s.entry k := rfl

/-! ### turnToSpace -/

@[simp] theorem State.turnToSpace_tickCount (s : State) : (s.turnToSpace).tickCount = s.tickCount := rfl
@[simp] theorem State.turnToSpace_ms (s : State) : (s.turnToSpace).ms = s.ms := rfl
@[simp] theorem State.turnToSpace_stn (s : State) : (s.turnToSpace).stn = s.stn := rfl
@[simp] theorem State.turnToSpace_profiles (s : State) : (s.turnToSpace).profiles = s.profiles := rfl
@[simp] theorem State.turnToSpace_jobs (s : State) : (s.turnToSpace).jobs = s.jobs := rfl
@[simp] theorem State.turnToSpace_la (s : State) : (s.turnToSpace).la = s.la := rfl
@[simp] theorem State.turnToSpace_tx (s : State) : (s.turnToSpace).tx = s.tx := rfl
@[simp] theorem State.turnToSpace_entries (s : State) : (s.turnToSpace).entries = s.entries := rfl
@[simp] theorem State.turnToSpace_seqs (s : State) : (s.turnToSpace).seqs = s.seqs := rfl
@[simp] theorem State.turnToSpace_mem (s : State) : (s.turnToSpace).mem = s.mem := rfl
@[simp] theorem State.turnToSpace_rings (s : State) : (s.turnToSpace).rings = s.rings := rfl
@[simp] theorem State.turnToSpace_ports (s : State) : (s.turnToSpace).ports = s.ports := rfl
@[simp] theorem State.turnToSpace_pending (s : State) : (s.turnToSpace).pending = s.pending := rfl
@[simp] theorem State.turnToSpace_job (s : State) (k : SlotId) : (s.turnToSpace).job k = s.job k := rfl
@[simp] theorem State.turnToSpace_ticket (s : State) (k : SlotId) : (s.turnToSpace).ticket k = s.ticket k := rfl
@[simp] theorem State.turnToSpace_profile (s : State) (k : ProfileId) : (s.turnToSpace).profile k = s.profile k := rfl
@[simp] theorem State.turnToSpace_port (s : State) (k : Port) : (s.turnToSpace).port k = s.port k := rfl
@[simp] theorem State.turnToSpace_ring (s : State) (k : Port) : (s.turnToSpace).ring k = s.ring k := rfl
@[simp] theorem State.turnToSpace_entry (s : State) (k : EntryId) : (s.turnToSpace).entry k = s.entry k := rfl

/-! ### What a changed field becomes -/

@[simp] theorem State.modifyJob_job_self (s : State) (i : SlotId) (f : Job → Job) :
    (s.modifyJob i f).job i = (s.job i).map f := by simp [State.job, State.modifyJob]

theorem State.modifyJob_job_ne (s : State) (i k : SlotId) (f : Job → Job) (h : k ≠ i) :
    (s.modifyJob i f).job k = s.job k := by
  simp [State.job, State.modifyJob, Fin.getElem_fin, Fin.val_ne_of_ne (Ne.symm h)]

theorem State.modifyJob_job (s : State) (i k : SlotId) (f : Job → Job) :
    (s.modifyJob i f).job k = if k = i then (s.job i).map f else s.job k := by
  split
  · subst_vars; simp
  · exact s.modifyJob_job_ne i k f ‹_›

@[simp] theorem State.modifyJob_ticket (s : State) (i k : SlotId) (f : Job → Job) :
    (s.modifyJob i f).ticket k = s.ticket k := by
  by_cases h : i.val = k.val
  · have := Fin.ext h; subst this; simp [State.ticket, State.modifyJob]
  · simp [State.ticket, State.modifyJob, Fin.getElem_fin, h]

@[simp] theorem State.freeSlot_job_self (s : State) (i : SlotId) : (s.freeSlot i).job i = none := by
  simp [State.job, State.freeSlot]

theorem State.freeSlot_job_ne (s : State) (i k : SlotId) (h : k ≠ i) : (s.freeSlot i).job k = s.job k := by
  simp [State.job, State.freeSlot, Fin.getElem_fin, Fin.val_ne_of_ne (Ne.symm h)]

theorem State.freeSlot_job (s : State) (i k : SlotId) :
    (s.freeSlot i).job k = if k = i then none else s.job k := by
  split
  · subst_vars; simp
  · exact s.freeSlot_job_ne i k ‹_›

@[simp] theorem State.freeSlot_ticket (s : State) (i k : SlotId) : (s.freeSlot i).ticket k = s.ticket k := by
  by_cases h : i.val = k.val
  · have := Fin.ext h; subst this; simp [State.ticket, State.freeSlot]
  · simp [State.ticket, State.freeSlot, Fin.getElem_fin, h]

@[simp] theorem State.fillSlot_job_self (s : State) (i : SlotId) (j : Job) : (s.fillSlot i j).job i = some j := by
  simp [State.job, State.fillSlot]

theorem State.fillSlot_job_ne (s : State) (i k : SlotId) (j : Job) (h : k ≠ i) :
    (s.fillSlot i j).job k = s.job k := by
  simp [State.job, State.fillSlot, Fin.getElem_fin, Fin.val_ne_of_ne (Ne.symm h)]

theorem State.fillSlot_job (s : State) (i k : SlotId) (j : Job) :
    (s.fillSlot i j).job k = if k = i then some j else s.job k := by
  split
  · subst_vars; simp
  · exact s.fillSlot_job_ne i k j ‹_›

@[simp] theorem State.fillSlot_ticket_self (s : State) (i : SlotId) (j : Job) :
    (s.fillSlot i j).ticket i = s.ticket i + 1 := by simp [State.ticket, State.fillSlot]

theorem State.fillSlot_ticket_ne (s : State) (i k : SlotId) (j : Job) (h : k ≠ i) :
    (s.fillSlot i j).ticket k = s.ticket k := by
  simp [State.ticket, State.fillSlot, Fin.getElem_fin, Fin.val_ne_of_ne (Ne.symm h)]

@[simp] theorem State.modifyPort_port_self (s : State) (p : Port) (f : HostPort → HostPort) :
    (s.modifyPort p f).port p = f (s.port p) := by simp [State.port, State.modifyPort]

theorem State.modifyPort_port_ne (s : State) (p k : Port) (f : HostPort → HostPort) (h : k ≠ p) :
    (s.modifyPort p f).port k = s.port k := by
  simp [State.port, State.modifyPort, Fin.getElem_fin, Fin.val_ne_of_ne (Ne.symm h)]

theorem State.modifyPort_port (s : State) (p k : Port) (f : HostPort → HostPort) :
    (s.modifyPort p f).port k = if k = p then f (s.port p) else s.port k := by
  split
  · subst_vars; simp
  · exact s.modifyPort_port_ne p k f ‹_›

@[simp] theorem State.setRing_ring_self (s : State) (p : Port) (r : Option Ring) : (s.setRing p r).ring p = r := by
  simp [State.ring, State.setRing]

theorem State.setRing_ring_ne (s : State) (p k : Port) (r : Option Ring) (h : k ≠ p) :
    (s.setRing p r).ring k = s.ring k := by
  simp [State.ring, State.setRing, Fin.getElem_fin, Fin.val_ne_of_ne (Ne.symm h)]

@[simp] theorem State.setEntry_entry_self (s : State) (e : EntryId) (x : Option Entry) :
    (s.setEntry e x).entry e = x := by simp [State.entry, State.setEntry]

theorem State.setEntry_entry_ne (s : State) (e k : EntryId) (x : Option Entry) (h : k ≠ e) :
    (s.setEntry e x).entry k = s.entry k := by
  simp [State.entry, State.setEntry, Fin.getElem_fin, Fin.val_ne_of_ne (Ne.symm h)]

@[simp] theorem State.setProfile_profile_self (s : State) (q : ProfileId) (x : Option Profile) :
    (s.setProfile q x).profile q = x := by simp [State.profile, State.setProfile]

theorem State.setProfile_profile_ne (s : State) (q k : ProfileId) (x : Option Profile) (h : k ≠ q) :
    (s.setProfile q x).profile k = s.profile k := by
  simp [State.profile, State.setProfile, Fin.getElem_fin, Fin.val_ne_of_ne (Ne.symm h)]

/-- R177: a re-evaluation moves the attention line of its port and nothing else of any port. -/
theorem State.attend_port (s : State) (p k : Port) :
    (s.attend p).port k = if k = p then { s.port p with attn := s.attentionDue p } else s.port k :=
  s.modifyPort_port p k _

@[simp] theorem State.setDecoder_rx (s : State) (d : Decoder) : (s.setDecoder d).rx = { s.rx with decoder := d } := rfl
@[simp] theorem State.vacate_la (s : State) (i : SlotId) : (s.vacate i).la = s.la.without i := rfl
@[simp] theorem State.startGuard_la (s : State) (i : SlotId) :
    (s.startGuard i).la = { s.la with guard := some { count := 0, target := s.guardTarget i } } := rfl
@[simp] theorem State.stopDrive_tx (s : State) : s.stopDrive.tx = .stopped := rfl
@[simp] theorem State.stopDrive_rx (s : State) : s.stopDrive.rx = s.rx.leaveEcho := rfl

end Sys2Proof.Machine
end

