-- ==== Sys2Proof/Laws/Delivery.lean ====
section
/-! SUPPORT. What an offer and a delivery can do: they move the delivery sequences, the rings and the frame memory, and
the attention lines that follow the rings, and nothing else. -/

namespace Sys2Proof.Machine

/-! ### Rings -/

/-- R150: an offer to a ring that is not full. -/
theorem Ring.offer_append {r : Ring} (e : Event) (seq time : BitVec 16) (m : List Host.Cell) (h : r.count < r.depth) :
    r.offer e seq time m = r.append e seq time m := by simp only [Ring.offer, h, if_true]

/-- R151: an offer to a full KEEP_OLD ring. -/
theorem Ring.offer_keepOld {r : Ring} (e : Event) (seq time : BitVec 16) (m : List Host.Cell) (h : ¬r.count < r.depth)
    (hp : r.policy = .keepOld) :
    r.offer e seq time m = ({ r with pendingMissed := saturate 255 (r.pendingMissed + 1) }, m) := by
  simp only [Ring.offer, h, if_false, hp]

/-- R152: an offer to a full KEEP_NEW ring. -/
theorem Ring.offer_keepNew {r : Ring} (e : Event) (seq time : BitVec 16) (m : List Host.Cell) (h : ¬r.count < r.depth)
    (hp : r.policy = .keepNew) :
    r.offer e seq time m =
      ((((r.removeOldest m).1.append e seq time (r.removeOldest m).2).1),
        ((r.removeOldest m).1.append e seq time (r.removeOldest m).2).1.raiseMissed
          (1 + (Memory.read (missedAddress (r.slotAt 0)) m).toNat)
          ((r.removeOldest m).1.append e seq time (r.removeOldest m).2).2) := by
  simp only [Ring.offer, h, if_false, hp]

/-- An offer keeps a ring's place and policy. -/
theorem Ring.offer_place (r : Ring) (e : Event) (seq time : BitVec 16) (m : List Host.Cell) :
    (r.offer e seq time m).1.base = r.base ∧ (r.offer e seq time m).1.depth = r.depth ∧
      (r.offer e seq time m).1.policy = r.policy := by
  by_cases h : r.count < r.depth
  · rw [Ring.offer_append e seq time m h]; exact ⟨rfl, rfl, rfl⟩
  · cases hp : r.policy with
    | keepOld => rw [Ring.offer_keepOld e seq time m h hp]; exact ⟨rfl, rfl, hp⟩
    | keepNew => rw [Ring.offer_keepNew e seq time m h hp]; exact ⟨rfl, rfl, hp⟩

/-- An offer's effect on the descriptor does not depend on the bytes of the frame memory. -/
theorem Ring.offer_ring (r : Ring) (e : Event) (seq time : BitVec 16) (m m' : List Host.Cell) :
    (r.offer e seq time m).1 = (r.offer e seq time m').1 := by
  by_cases h : r.count < r.depth
  · rw [Ring.offer_append e seq time m h, Ring.offer_append e seq time m' h]; rfl
  · cases hp : r.policy with
    | keepOld => rw [Ring.offer_keepOld e seq time m h hp, Ring.offer_keepOld e seq time m' h hp]
    | keepNew =>
      rw [Ring.offer_keepNew e seq time m h hp, Ring.offer_keepNew e seq time m' h hp]
      simp only [Ring.append, Ring.removeOldest]

theorem Ring.offer_wf {r : Ring} {e : Event} {seq time : BitVec 16} {m : List Host.Cell} (hm : Memory.wf m = true) :
    Memory.wf (r.offer e seq time m).2 = true := by
  by_cases h : r.count < r.depth
  · rw [Ring.offer_append e seq time m h]; exact Memory.wf_writeSlot hm
  · cases hp : r.policy with
    | keepOld => rw [Ring.offer_keepOld e seq time m h hp]; exact hm
    | keepNew =>
      rw [Ring.offer_keepNew e seq time m h hp]
      exact Memory.wf_write (Memory.wf_writeSlot (Memory.wf_clearSlot hm))

theorem Ring.clear_wf {r : Ring} {n : Nat} {m : List Host.Cell} (hm : Memory.wf m = true) :
    Memory.wf (r.clear n m) = true := by
  induction n with
  | zero => exact hm
  | succ n ih => exact Memory.wf_clearSlot ih

theorem Ring.slotAt_bounds {r : Ring} (h : 1 ≤ r.depth) (i : Nat) :
    r.base ≤ r.slotAt i ∧ r.slotAt i < r.base + r.depth := by
  have : (r.head + i) % r.depth < r.depth := Nat.mod_lt _ (by omega)
  simp only [Ring.slotAt]
  omega

/-- An address lies in the slots of a ring. -/
def Ring.covers (r : Ring) (a : Nat) : Prop := 16 * r.base ≤ a ∧ a < 16 * (r.base + r.depth)

/-- The missed byte of a position lies in the ring's slots. -/
theorem Ring.covers_missed {r : Ring} (h : 1 ≤ r.depth) (i : Nat) : r.covers (missedAddress (r.slotAt i)) := by
  have := Ring.slotAt_bounds h i
  simp only [Ring.covers, missedAddress, slotAddress, Config.slotBytes, Config.missedOffset]
  omega

/-- R150 to R152: an offer leaves every byte outside the ring's slots. -/
theorem Ring.offer_read_ne {r : Ring} {e : Event} {seq time : BitVec 16} {m : List Host.Cell} {a : Nat}
    (hd : 1 ≤ r.depth) (ha : ¬r.covers a) : Memory.read a (r.offer e seq time m).2 = Memory.read a m := by
  have slot (i : Nat) : ¬(slotAddress (r.slotAt i) ≤ a ∧ a < slotAddress (r.slotAt i) + 16) := by
    have := Ring.slotAt_bounds hd i
    simp only [Ring.covers, slotAddress, Config.slotBytes] at *
    omega
  by_cases h : r.count < r.depth
  · rw [Ring.offer_append e seq time m h]
    exact Memory.read_writeSlot_ne (slot _)
  · cases hp : r.policy with
    | keepOld => rw [Ring.offer_keepOld e seq time m h hp]
    | keepNew =>
      rw [Ring.offer_keepNew e seq time m h hp]
      have missed : a ≠ missedAddress (((r.removeOldest m).1.append e seq time (r.removeOldest m).2).1.slotAt 0) :=
        fun he => ha (he ▸ Ring.covers_missed (r := ((r.removeOldest m).1.append e seq time (r.removeOldest m).2).1) hd 0)
      rw [Ring.raiseMissed, Memory.read_write_ne missed]
      refine (Memory.read_writeSlot_ne ?_).trans (Memory.read_clearSlot_ne (slot 0))
      have := Ring.slotAt_bounds (r := (r.removeOldest m).1) hd (r.removeOldest m).1.count
      simp only [Ring.covers, slotAddress, Config.slotBytes, Ring.removeOldest] at *
      omega

/-- R150 to R152: what an offer leaves in the ring's slots depends on what stood in them. -/
theorem Ring.offer_read_congr {r : Ring} {e : Event} {seq time : BitVec 16} {m m' : List Host.Cell}
    (hd : 1 ≤ r.depth) (hm : Memory.wf m = true) (hm' : Memory.wf m' = true)
    (h : ∀ a, r.covers a → Memory.read a m' = Memory.read a m) {a : Nat} (ha : r.covers a) :
    Memory.read a (r.offer e seq time m').2 = Memory.read a (r.offer e seq time m).2 := by
  by_cases hc : r.count < r.depth
  · rw [Ring.offer_append e seq time m hc, Ring.offer_append e seq time m' hc]
    exact Memory.read_writeBytes_congr hm hm' (h a ha)
  · cases hp : r.policy with
    | keepOld => rw [Ring.offer_keepOld e seq time m hc hp, Ring.offer_keepOld e seq time m' hc hp]; exact h a ha
    | keepNew =>
      rw [Ring.offer_keepNew e seq time m hc hp, Ring.offer_keepNew e seq time m' hc hp]
      have kept {x : Nat} (hx : r.covers x) :
          Memory.read x ((r.removeOldest m').1.append e seq time (r.removeOldest m').2).2 =
            Memory.read x ((r.removeOldest m).1.append e seq time (r.removeOldest m).2).2 :=
        Memory.read_writeBytes_congr (Memory.wf_clearSlot hm) (Memory.wf_clearSlot hm')
          (Memory.read_writeBytes_congr hm hm' (h x hx))
      have place := Ring.covers_missed (r := ((r.removeOldest m).1.append e seq time (r.removeOldest m).2).1) hd 0
      unfold Ring.raiseMissed
      rw [h _ (Ring.covers_missed hd 0)]
      have descriptor : ((r.removeOldest m').1.append e seq time (r.removeOldest m').2).1 =
          ((r.removeOldest m).1.append e seq time (r.removeOldest m).2).1 := by simp only [Ring.removeOldest, Ring.append]
      rw [descriptor]
      simp only [kept place]
      exact Memory.read_write_congr (Memory.wf_writeSlot (Memory.wf_clearSlot hm))
        (Memory.wf_writeSlot (Memory.wf_clearSlot hm')) (kept ha)
/-- R143: clearing the first n positions of a ring leaves every byte outside their slots. -/
theorem Ring.clear_read_ne {r : Ring} {n : Nat} {m : List Host.Cell} {a : Nat}
    (h : ∀ i < n, ¬(slotAddress (r.slotAt i) ≤ a ∧ a < slotAddress (r.slotAt i) + 16)) :
    Memory.read a (r.clear n m) = Memory.read a m := by
  induction n with
  | zero => rfl
  | succ n ih =>
    rw [Ring.clear, Memory.read_clearSlot_ne (h n (by omega))]
    exact ih fun i hi => h i (by omega)

/-- R143: the slots of the positions cleared hold no record. -/
theorem Ring.clear_readSlot {r : Ring} {n i : Nat} {m : List Host.Cell} (hr : r.lawful) (hm : Memory.wf m = true)
    (hi : i < n) : Memory.readSlot (r.slotAt i) (r.clear n m) = List.replicate 16 0 := by
  induction n with
  | zero => omega
  | succ n ih =>
    have inside : r.slotAt n < Config.memSlots := by
      have := Ring.slotAt_bounds hr.1 n
      have := hr.2.2.1
      omega
    have cleared : Memory.readSlot (r.slotAt n) (r.clear (n + 1) m) = List.replicate 16 0 :=
      Memory.readSlot_writeSlot (bs := List.replicate 16 0) (Ring.clear_wf hm) inside (by simp)
    by_cases same : r.slotAt i = r.slotAt n
    · rw [same, cleared]
    · rw [Ring.clear, Memory.readSlot_congr, ih (Nat.lt_of_le_of_ne (by omega) fun h => same (by rw [h]))]
      intro a h1 h2
      refine Memory.read_clearSlot_ne fun h => ?_
      simp only [slotAddress, Config.slotBytes] at *
      omega

/-! ### Delivery -/

/-- t is s but for the delivery sequences, the contents of rings and of the frame memory, and the attention lines. -/
structure State.OnlyDelivers (s t : State) : Prop where
  rest : t = { s with seqs := t.seqs, mem := t.mem, rings := t.rings, ports := t.ports }
  port : ∀ p, t.port p = { s.port p with attn := (t.port p).attn }
  ring : ∀ p, t.ring p = (s.ring p).map fun r => { r with
    head := ((t.ring p).getD r).head, count := ((t.ring p).getD r).count
    pendingMissed := ((t.ring p).getD r).pendingMissed }
  wf   : Memory.wf s.mem = true → Memory.wf t.mem = true

theorem State.OnlyDelivers.refl (s : State) : s.OnlyDelivers s where
  rest := rfl
  port := fun _ => rfl
  ring := fun p => by cases h : s.ring p <;> simp
  wf := id

theorem State.OnlyDelivers.trans {s t u : State} (h : s.OnlyDelivers t) (h' : t.OnlyDelivers u) : s.OnlyDelivers u where
  rest := by rw [h'.rest, h.rest]
  port := fun p => by rw [h'.port, h.port]
  ring := fun p => by rw [h'.ring, h.ring]; cases s.ring p <;> simp
  wf := h'.wf ∘ h.wf

/-- R141, R150: what an offer makes of the frame memory. -/
theorem State.offer_mem (s : State) (p : Port) (e : Event) (seq : BitVec 16) :
    (s.offer p e seq).mem = match s.ring p with
      | none => s.mem
      | some r => (r.offer e seq s.timestamp s.mem).2 := by
  unfold State.offer
  cases s.ring p <;> rfl

/-- R141, R150: an offer. -/
theorem State.OnlyDelivers.offer (s : State) (p : Port) (e : Event) (seq : BitVec 16) :
    s.OnlyDelivers (s.offer p e seq) := by
  unfold State.offer
  cases hr : s.ring p with
  | none => exact .refl s
  | some r =>
    refine ⟨rfl, fun k => ?_, fun k => ?_, fun hm => Ring.offer_wf hm⟩
    · rw [State.attend_port]
      split
      · subst_vars; rfl
      · rfl
    · by_cases hk : k = p
      · subst hk
        obtain ⟨h1, h2, h3⟩ := r.offer_place e seq s.timestamp s.mem
        simp only [State.attend_ring, State.setRing_ring_self, hr, Option.map_some, Option.getD_some]
        rw [← h1, ← h2, ← h3]
      · simp only [State.attend_ring, State.setRing_ring_ne _ _ _ _ hk]
        exact (State.OnlyDelivers.refl s).ring k

theorem State.OnlyDelivers.deliverTo (e : Event) (s : State) (p : Port) : s.OnlyDelivers (s.deliverTo e p) := by
  unfold State.deliverTo
  split
  · refine .trans (t := { s with seqs := s.seqs.set p (s.seqs[p] + 1) }) ⟨rfl, fun _ => rfl, ?_, id⟩ (.offer _ p e _)
    exact (State.OnlyDelivers.refl s).ring
  · exact .refl s

/-- R134: the delivery unit takes an event. -/
theorem State.OnlyDelivers.deliver (s : State) (e : Event) : s.OnlyDelivers (s.deliver e) := by
  unfold State.deliver
  generalize allPorts = ps
  induction ps generalizing s with
  | nil => exact .refl s
  | cons p ps ih => exact .trans (.deliverTo e s p) (ih _)

section
variable (s : State) (e : Event)

@[simp] theorem State.deliver_tickCount : (s.deliver e).tickCount = s.tickCount := by
  rw [(State.OnlyDelivers.deliver s e).rest]
@[simp] theorem State.deliver_ms : (s.deliver e).ms = s.ms := by rw [(State.OnlyDelivers.deliver s e).rest]
@[simp] theorem State.deliver_stn : (s.deliver e).stn = s.stn := by rw [(State.OnlyDelivers.deliver s e).rest]
@[simp] theorem State.deliver_profiles : (s.deliver e).profiles = s.profiles := by
  rw [(State.OnlyDelivers.deliver s e).rest]
@[simp] theorem State.deliver_jobs : (s.deliver e).jobs = s.jobs := by rw [(State.OnlyDelivers.deliver s e).rest]
@[simp] theorem State.deliver_la : (s.deliver e).la = s.la := by rw [(State.OnlyDelivers.deliver s e).rest]
@[simp] theorem State.deliver_tx : (s.deliver e).tx = s.tx := by rw [(State.OnlyDelivers.deliver s e).rest]
@[simp] theorem State.deliver_rx : (s.deliver e).rx = s.rx := by rw [(State.OnlyDelivers.deliver s e).rest]
@[simp] theorem State.deliver_entries : (s.deliver e).entries = s.entries := by
  rw [(State.OnlyDelivers.deliver s e).rest]
@[simp] theorem State.deliver_pending : (s.deliver e).pending = s.pending := by
  rw [(State.OnlyDelivers.deliver s e).rest]
@[simp] theorem State.deliver_job (i : SlotId) : (s.deliver e).job i = s.job i := by simp [State.job]
@[simp] theorem State.deliver_ticket (i : SlotId) : (s.deliver e).ticket i = s.ticket i := by simp [State.ticket]
@[simp] theorem State.deliver_profile (q : ProfileId) : (s.deliver e).profile q = s.profile q := by simp [State.profile]
@[simp] theorem State.deliver_entry (i : EntryId) : (s.deliver e).entry i = s.entry i := by simp [State.entry]

/-- R138: whether a port is offered an event's record does not depend on the rings. -/
@[simp] theorem State.deliver_wants (p : Port) (e' : Event) : (s.deliver e).wants p e' = s.wants p e' := by
  have h : ∀ test, (s.deliver e).entrySatisfies test = s.entrySatisfies test := fun test => by
    funext i; simp [State.entrySatisfies]
  simp [State.wants, h]

end

/-! ### Attention (R177) -/

/-- ATTNn is at the level of its condition right after a re-evaluation. -/
theorem State.attend_lawful (s : State) (p : Port) : ((s.attend p).port p).attn = (s.attend p).attentionDue p := by
  simp only [State.attend_port, if_true, State.attentionDue, State.ringCount, State.attend_ring]
  rfl

/-- A re-evaluation at one port leaves the condition of every port. -/
@[simp] theorem State.attend_attentionDue (s : State) (p k : Port) : (s.attend p).attentionDue k = s.attentionDue k := by
  simp only [State.attentionDue, State.attend_port, State.ringCount, State.attend_ring]
  split
  · subst_vars; rfl
  · rfl

end Sys2Proof.Machine
end

