-- ==== Sys2Proof/Laws/Arbiter.lean ====
section
/-! SUPPORT. What the arbiter's operations change: one lemma for each, which says everything the operation can touch. -/

namespace Sys2Proof.Machine

/-! ### Leaving a place -/

section
variable (a : Arbiter) (i : SlotId)

@[simp] theorem Arbiter.without_queues (c : Class) : (a.without i).queues[c] = a.queues[c].filter (· ≠ i) := by
  unfold Arbiter.without
  dsimp only
  split <;> simp

@[simp] theorem Arbiter.without_stack : (a.without i).stack = a.stack.filter (· ≠ i) := by
  unfold Arbiter.without
  dsimp only
  split <;> rfl

@[simp] theorem Arbiter.without_backoff : (a.without i).backoff = a.backoff.filter (· ≠ i) := by
  unfold Arbiter.without
  dsimp only
  split <;> rfl

/-- R64: the line position empties, with its guard and its period, when the slot stood in it. -/
theorem Arbiter.without_held (h : a.position.slot = some i) :
    (a.without i).position = .empty ∧ (a.without i).guard = none ∧ (a.without i).repeatTimer = none ∧
      (a.without i).periodDone = false := by
  simp only [Arbiter.without, h, if_true, and_self]

/-- R63: the line position stays, with its guard and its period, when the slot stood elsewhere. -/
theorem Arbiter.without_elsewhere (h : a.position.slot ≠ some i) :
    (a.without i).position = a.position ∧ (a.without i).guard = a.guard ∧ (a.without i).repeatTimer = a.repeatTimer ∧
      (a.without i).periodDone = a.periodDone := by
  simp only [Arbiter.without, h, if_false, and_self]

end

/-! ### Changing a job -/

/-- Two changes that agree on a slot's job are one. -/
theorem State.modifyJob_congr {s : State} {i : SlotId} {j : Job} {f g : Job → Job} (hj : s.job i = some j)
    (h : f j = g j) : s.modifyJob i f = s.modifyJob i g := by
  have hj' : s.jobs[i].job = some j := hj
  simp only [State.modifyJob, hj', Option.map_some, h]

/-! ### What the arbiter touches -/

/-- Nothing but jobs' records, with the tickets kept, and the arbiter's own state differs between s and t. -/
structure State.OnlyArbiter (s t : State) : Prop where
  rest : t = { s with jobs := t.jobs, la := t.la }
  ticket : ∀ k, t.ticket k = s.ticket k

theorem State.OnlyArbiter.refl (s : State) : s.OnlyArbiter s := ⟨rfl, fun _ => rfl⟩

theorem State.OnlyArbiter.trans {s t u : State} (h : s.OnlyArbiter t) (h' : t.OnlyArbiter u) : s.OnlyArbiter u where
  rest := by rw [h'.rest, h.rest]
  ticket := fun k => by rw [h'.ticket, h.ticket]

theorem State.OnlyArbiter.la (s : State) (a : Arbiter) : s.OnlyArbiter { s with la := a } := ⟨rfl, fun _ => rfl⟩

theorem State.OnlyArbiter.modifyJob (s : State) (i : SlotId) (f : Job → Job) : s.OnlyArbiter (s.modifyJob i f) where
  rest := rfl
  ticket := fun k => by
    simp only [State.ticket, State.modifyJob, Fin.getElem_fin, Vector.getElem_set]
    split
    · rename_i h; simp only [h]
    · rfl

theorem State.OnlyArbiter.freeSlot (s : State) (i : SlotId) : s.OnlyArbiter (s.freeSlot i) where
  rest := rfl
  ticket := fun k => by
    simp only [State.ticket, State.freeSlot, Fin.getElem_fin, Vector.getElem_set]
    split
    · rename_i h; simp only [h]
    · rfl

theorem State.OnlyArbiter.startGuard (s : State) (i : SlotId) : s.OnlyArbiter (s.startGuard i) := ⟨rfl, fun _ => rfl⟩

theorem State.OnlyArbiter.makeCandidate (s : State) (i : SlotId) (o : Origin) : s.OnlyArbiter (s.makeCandidate i o) :=
  .trans (.la s _) (.trans (.modifyJob _ i _) (.startGuard _ i))

/-- R50: selection. -/
theorem State.OnlyArbiter.select (s : State) : s.OnlyArbiter s.select := by
  unfold State.select
  split
  · exact .makeCandidate s _ _
  · exact .refl s

theorem State.OnlyArbiter.selectIfEmpty (s : State) : s.OnlyArbiter s.selectIfEmpty := by
  unfold State.selectIfEmpty
  split
  · exact .select s
  · exact .refl s

theorem State.OnlyArbiter.displace (s : State) (i : SlotId) (o : Origin) : s.OnlyArbiter (s.displace i o) := by
  cases o
  · exact .trans (.la s _) (.modifyJob _ i _)
  · exact .trans (.la s _) (.modifyJob _ i _)

theorem State.OnlyArbiter.preempt (s : State) (i : SlotId) : s.OnlyArbiter (s.preempt i) :=
  .trans (.trans (.la s _) (.modifyJob _ i _)) (.select _)

/-- R62: what a join does to the line position. -/
theorem State.OnlyArbiter.reactToJoin (s : State) (c : Class) : s.OnlyArbiter (s.reactToJoin c) := by
  unfold State.reactToJoin
  split
  · exact .select s
  · split
    · exact .trans (.displace s _ _) (.select _)
    · exact .refl s
  · split
    · exact .preempt s _
    · exact .refl s

theorem State.OnlyArbiter.joinTail (s : State) (i : SlotId) : s.OnlyArbiter (s.joinTail i) :=
  .trans (.trans (.la s _) (.modifyJob _ i _)) (.reactToJoin _ _)

theorem State.OnlyArbiter.joinHead (s : State) (i : SlotId) : s.OnlyArbiter (s.joinHead i) :=
  .trans (.trans (.la s _) (.modifyJob _ i _)) (.reactToJoin _ _)

theorem State.OnlyArbiter.enterGap (s : State) (i : SlotId) : s.OnlyArbiter (s.enterGap i) := by
  unfold State.enterGap
  dsimp only
  split
  · exact .trans (.modifyJob s i _) (.preempt _ i)
  · exact .trans (.modifyJob s i _) (.startGuard _ i)

theorem State.OnlyArbiter.enterBackoff (s : State) (i : SlotId) : s.OnlyArbiter (s.enterBackoff i) :=
  .trans (.trans (.la s _) (.modifyJob _ i _)) (.select _)

theorem State.OnlyArbiter.dropJob (s : State) (i : SlotId) : s.OnlyArbiter (s.dropJob i) :=
  .trans (.la s _) (.freeSlot _ i)

/-- R88: an end without its notice. -/
theorem State.OnlyArbiter.endSilently (s : State) (i : SlotId) : s.OnlyArbiter (s.endSilently i) := by
  unfold State.endSilently
  split
  · exact .trans (.dropJob s i) (.select _)
  · exact .dropJob s i

/-! ### Frame starts -/

/-- R53, R57, R72, R109: all that a frame start touches. -/
theorem State.frameStart_rest (s : State) (i : SlotId) :
    s.frameStart i = { s with
      jobs := (s.frameStart i).jobs, la := (s.frameStart i).la, tx := (s.frameStart i).tx,
      rx := { s.rx with decoder := (s.frameStart i).rx.decoder } } := by
  unfold State.frameStart
  split <;> rfl

/-- R53, R57: a frame start moves no queue, no suspended and no backed-off job. -/
theorem State.frameStart_places (s : State) (i : SlotId) :
    (s.frameStart i).la.queues = s.la.queues ∧ (s.frameStart i).la.stack = s.la.stack ∧
      (s.frameStart i).la.backoff = s.la.backoff := by
  unfold State.frameStart
  split <;> exact ⟨rfl, rfl, rfl⟩

/-! ### Ends -/

/-- R88, R89, R102: all that the writing of a notice touches: the notices and the attention line of one port. -/
theorem State.notify_rest (s : State) (i : SlotId) (o : JobOutcome) :
    s.notify i o = { s with ports := (s.notify i o).ports } ∧
      ∀ p, (s.notify i o).port p =
        { s.port p with notices := ((s.notify i o).port p).notices, attn := ((s.notify i o).port p).attn } := by
  unfold State.notify
  split
  · split
    · refine ⟨rfl, fun p => ?_⟩
      simp only [State.pushNotice, State.attend_port, State.modifyPort_port]
      split
      · subst_vars; rfl
      · rfl
    · exact ⟨rfl, fun _ => rfl⟩
  · exact ⟨rfl, fun _ => rfl⟩

/-- R88: all that the end of a job touches. -/
theorem State.endJob_rest (s : State) (i : SlotId) (o : JobOutcome) :
    s.endJob i o = { s with
        jobs := (s.endJob i o).jobs, la := (s.endJob i o).la, ports := (s.notify i o).ports } ∧
      ∀ k, (s.endJob i o).ticket k = s.ticket k := by
  have h := State.OnlyArbiter.endSilently (s.notify i o) i
  refine ⟨?_, fun k => ?_⟩
  · have h1 := h.rest
    rw [(s.notify_rest i o).1] at h1
    unfold State.endJob
    rw [(s.notify_rest i o).1]
    exact h1
  · refine (h.ticket k).trans ?_
    rw [(s.notify_rest i o).1]
    rfl

/-- R44, R66, R83: the close of a port at a slot touches the job table, the arbiter, the transmitter and the receiver. -/
theorem State.closeJob_rest (p : Port) (cut : Bool) (s : State) (i : SlotId) :
    ∃ jobs la tx rx, s.closeJob p cut i = { s with jobs := jobs, la := la, tx := tx, rx := rx } := by
  unfold State.closeJob
  split
  · exact ⟨_, _, _, _, rfl⟩
  · split
    · split
      · split <;> exact ⟨_, _, _, _, rfl⟩
      · exact ⟨_, _, _, _, rfl⟩
    · exact ⟨_, _, _, _, rfl⟩

/-- R44, R66: and so does the close of a port over the whole table. -/
theorem State.closeJobs_rest (p : Port) (cut : Bool) (s : State) :
    ∃ jobs la tx rx, s.closeJobs p cut = { s with jobs := jobs, la := la, tx := tx, rx := rx } := by
  have fold (l : List SlotId) (u : State) :
      ∃ jobs la tx rx, l.foldl (State.closeJob p cut) u = { u with jobs := jobs, la := la, tx := tx, rx := rx } := by
    induction l generalizing u with
    | nil => exact ⟨_, _, _, _, rfl⟩
    | cons i l ih =>
      obtain ⟨_, _, _, _, h⟩ := State.closeJob_rest p cut u i
      obtain ⟨_, _, _, _, h'⟩ := ih (u.closeJob p cut i)
      exact ⟨_, _, _, _, by rw [List.foldl_cons, h', h]⟩
  obtain ⟨_, _, _, _, h⟩ := fold allSlots s
  have rest := (State.OnlyArbiter.selectIfEmpty (allSlots.foldl (State.closeJob p cut) s)).rest
  rw [h] at rest
  exact ⟨_, _, _, _, by rw [State.closeJobs, h, rest]⟩

end Sys2Proof.Machine
end

