-- ==== Sys2Proof/Laws/Reception.lean ====
section
/-! SUPPORT. What the receiver's operations change: the receiver, and what delivery changes. -/

namespace Sys2Proof.Machine

/-- Nothing but the receiver and what delivery touches differs between s and t. -/
structure State.OnlyReceives (s t : State) : Prop where
  rest : t = { s with rx := t.rx, seqs := t.seqs, mem := t.mem, rings := t.rings, ports := t.ports }
  port : ∀ p, t.port p = { s.port p with attn := (t.port p).attn }
  ring : ∀ p, t.ring p = (s.ring p).map fun r =>
    { r with head := ((t.ring p).getD r).head, count := ((t.ring p).getD r).count,
             pendingMissed := ((t.ring p).getD r).pendingMissed }
  wf : Memory.wf s.mem = true → Memory.wf t.mem = true

theorem State.OnlyDelivers.receives {s t : State} (h : s.OnlyDelivers t) : s.OnlyReceives t where
  rest := by rw [h.rest]
  port := h.port
  ring := h.ring
  wf := h.wf

theorem State.OnlyReceives.refl (s : State) : s.OnlyReceives s := (State.OnlyDelivers.refl s).receives

theorem State.OnlyReceives.trans {s t u : State} (h : s.OnlyReceives t) (h' : t.OnlyReceives u) : s.OnlyReceives u where
  rest := by rw [h'.rest, h.rest]
  port := fun p => by rw [h'.port, h.port]
  ring := fun p => by rw [h'.ring, h.ring]; cases s.ring p <;> simp
  wf := h'.wf ∘ h.wf

theorem State.OnlyReceives.rx (s : State) (r : Receiver) : s.OnlyReceives { s with rx := r } where
  rest := rfl
  port := fun _ => rfl
  ring := (State.OnlyReceives.refl s).ring
  wf := id

theorem State.OnlyReceives.deliver (s : State) (e : Event) : s.OnlyReceives (s.deliver e) :=
  (State.OnlyDelivers.deliver s e).receives

theorem State.OnlyReceives.noise (s : State) : s.OnlyReceives s.noise := .rx s _

theorem State.OnlyReceives.failDecode (s : State) (q : ProfileId) (pr : Profile) (k : ErrorKind) :
    s.OnlyReceives (s.failDecode q pr k) := .trans (.rx s _) (.deliver _ _)

theorem State.OnlyReceives.failClose (s : State) (q : ProfileId) (k : ErrorKind) :
    s.OnlyReceives (s.failClose q k) := .trans (.rx s _) (.deliver _ _)

theorem State.OnlyReceives.applyJudgement (s : State) (q : ProfileId) (pr : Profile) (j : Judgement) :
    s.OnlyReceives (s.applyJudgement q pr j) := by
  cases j
  · exact .rx s _
  · exact .failDecode s q pr _

theorem State.OnlyReceives.endHold (s : State) (h : Hold) : s.OnlyReceives (s.endHold h) :=
  .trans (.rx s _) (.deliver _ _)

/-- R122: all that a good frame handed to the tracker touches. -/
theorem State.OnlyReceives.trackFrame (s : State) (f : Frame) : s.OnlyReceives (s.trackFrame f) := by
  unfold State.trackFrame
  split
  · split
    · exact .trans (.rx s _) (.deliver _ _)
    · exact .trans (.endHold s _) (.trans (.rx _ _) (.deliver _ _))
  · exact .trans (.rx s _) (.deliver _ _)

/-- R123: all that a marker handed to the tracker touches. -/
theorem State.OnlyReceives.trackMarker (s : State) (q : ProfileId) : s.OnlyReceives (s.trackMarker q) := by
  unfold State.trackMarker
  split
  · split
    · exact .trans (.rx s _) (.deliver _ _)
    · exact .refl s
  · exact .refl s

/-- R118, R120: all that the close of a decode touches. -/
theorem State.OnlyReceives.closeDecode (s : State) (d : Decoding) (pr : Profile) :
    s.OnlyReceives (s.closeDecode d pr) := by
  unfold State.closeDecode
  split
  · exact .trans (.rx s _) (.trackMarker _ _)
  · split
    · dsimp only
      split
      · exact .failClose s _ _
      · exact .trans (.rx s _) (.trackFrame _ _)
    · exact .failClose s _ _

/-- R112: all that the judgement of a leader space touches. -/
theorem State.OnlyReceives.judgeLeaderSpace (s : State) (qs : List ProfileId) (d : Nat) :
    s.OnlyReceives (s.judgeLeaderSpace qs d) := by
  unfold State.judgeLeaderSpace
  repeat' split
  all_goals exact .rx s _

/-- R107 to R117: all that the decoder's judgement at a mark touches. -/
theorem State.OnlyReceives.judgeAtMark (s : State) (space : Nat) : s.OnlyReceives (s.judgeAtMark space) := by
  unfold State.judgeAtMark
  split
  · split <;> exact .rx s _
  · exact .judgeLeaderSpace s _ _
  · split
    · exact .applyJudgement s _ _ _
    · exact .refl s
  all_goals exact .refl s

/-- R107 to R117: all that the decoder's judgement at a space touches. -/
theorem State.OnlyReceives.judgeAtSpace (s : State) (mark : Nat) : s.OnlyReceives (s.judgeAtSpace mark) := by
  unfold State.judgeAtSpace
  split
  · unfold State.judgeLeaderMark
    split <;> exact .rx s _
  · split
    · exact .applyJudgement s _ _ _
    · exact .refl s
  all_goals exact .refl s

/-- R18: all that a change of the listening set does to the decoder. -/
theorem State.OnlyReceives.reevaluateListening (s : State) : s.OnlyReceives s.reevaluateListening := by
  unfold State.reevaluateListening
  split
  · exact .rx s _
  · split
    · exact .refl s
    · exact .noise s
  · split
    · exact .refl s
    · exact .noise s
  all_goals exact .refl s

end Sys2Proof.Machine
end

