-- ==== Sys2Proof/Laws/Requests.lean ====
section
/-! SUPPORT. How a request is taken and answered, and what the readings of its body give. -/

namespace Sys2Proof.Machine

/-! ### Taking a request -/

/-- R165: a port with a request of the kind pending is answered with the block's reply. -/
theorem State.takeRequest_asks {s : State} {k : RequestKind} {p : Port} {tag : Byte} {body : List Byte}
    (h : Request → State → Reply) (hr : s.asks p k tag body) :
    s.takeRequest k p h =
      .next ((h ⟨k, tag, body⟩ s).state.answered p k tag (h ⟨k, tag, body⟩ s).status (h ⟨k, tag, body⟩ s).body) := by
  unfold State.asks at hr
  simp only [State.takeRequest, hr, if_true]
  rfl

/-- R165: all that taking a request can do: nothing, where none of the kind is pending, or answer it. -/
theorem State.takeRequest_cases (s : State) (k : RequestKind) (p : Port) (h : Request → State → Reply) :
    s.takeRequest k p h = .next s ∨
      ∃ r, (s.port p).request = some r ∧ r.kind = k ∧
        s.takeRequest k p h = .next ((h r s).state.modifyPort p fun x => x.answer r (h r s).status (h r s).body) := by
  unfold State.takeRequest
  split
  · rename_i r hr
    split
    · exact .inr ⟨r, hr, ‹_›, rfl⟩
    · exact .inl rfl
  · exact .inl rfl

/-! ### Numbers in a body -/

theorem finOf_val {n : Nat} (i : Fin n) (h : n ≤ 256) : finOf n (BitVec.ofNat 8 i.val).toNat = some i := by
  have hi : (BitVec.ofNat 8 i.val).toNat = i.val := by simp; omega
  simp [finOf, hi]

theorem finOf_ge {n k : Nat} (h : n ≤ k) : finOf n k = none := by simp [finOf]; omega

theorem boolOfCode_gt {b : Byte} (h : 1 < b.toNat) : boolOfCode b.toNat = none := by
  unfold boolOfCode
  split <;> simp_all

theorem boolOfCode_le {b : Byte} (h : b.toNat ≤ 1) : boolOfCode b.toNat = some (decide (b = 1)) := by
  rcases Nat.le_one_iff_eq_zero_or_eq_one.1 h with h | h
  · obtain rfl : b = 0 := BitVec.eq_of_toNat_eq h
    rfl
  · obtain rfl : b = 1 := BitVec.eq_of_toNat_eq h
    rfl

/-! ### Handles and searches -/

/-- R42: a handle names a live job that is no orphan. -/
theorem State.handleJob_eq_some {s : State} {slot ticket : Byte} {i : SlotId} {j : Job} :
    s.handleJob [slot, ticket] = some (i, j) ↔
      slot = BitVec.ofNat 8 i.val ∧ s.job i = some j ∧ s.ticket i = ticket ∧ j.orphan = false := by
  constructor
  · intro h
    unfold State.handleJob at h
    split at h
    · cases h
    · rename_i k hk
      split at h
      · cases h
      · rename_i j' hj
        by_cases hh : s.ticket k = bodyByte [slot, ticket] 1 ∧ j'.orphan = false
        · rw [if_pos hh] at h
          cases h
          refine ⟨?_, hj, hh.1, hh.2⟩
          simp only [slotOfBody, bodyNat, bodyByte, List.getD_cons_zero, finOf] at hk
          split at hk
          · cases hk; simp
          · cases hk
        · rw [if_neg hh] at h
          cases h
  · rintro ⟨rfl, hj, ht, ho⟩
    simp only [State.handleJob, slotOfBody, bodyNat, bodyByte, List.getD_cons_zero, finOf_val i (by omega), hj,
      List.getD_cons_succ, ht, ho, and_self, if_true]

/-- The first index that satisfies a test is the lowest one. -/
theorem find?_finRange {n : Nat} {f : Fin n → Bool} {i : Fin n} :
    (List.finRange n).find? f = some i ↔ f i = true ∧ ∀ k < i, f k = false := by
  simp only [List.find?_eq_some_iff_getElem]
  constructor
  · rintro ⟨h, k, hk, rfl, hmin⟩
    refine ⟨h, fun m hm => ?_⟩
    have := hmin m.val (by simpa [Fin.lt_def] using hm)
    simpa using this
  · rintro ⟨h, hmin⟩
    refine ⟨h, i.val, by simp, by simp, fun m hm => ?_⟩
    simpa using hmin ⟨m, by omega⟩ hm

/-- R30: the merge target of a submission: the lowest slot with an unstarted job of the port and the key. -/
theorem State.mergeTarget_eq_some {s : State} {p : Port} {key : Byte} {i : SlotId} :
    s.mergeTarget p key = some i ↔ key ≠ 0 ∧
      s.jobSatisfies (fun j => j.owner == p && j.key == key && j.unstarted) i = true ∧
        ∀ k < i, s.jobSatisfies (fun j => j.owner == p && j.key == key && j.unstarted) k = false := by
  unfold State.mergeTarget allSlots
  split
  · simp_all
  · simp_all [find?_finRange]

end Sys2Proof.Machine
end

