-- ==== Sys2Proof/WellFormed.lean ====
section
/-! DEFINITION. Well-formed terms. A command's operands carry their bounds in their types, so every command is well
formed. A request is well formed when its body has a length that R182 allows for it, which is what the port's checks
1 and 5 of R164 leave standing. -/

namespace Sys2Proof

/-- R163: a request body has at most 30 bytes. -/
def Request.shortEnough (r : Request) : Bool := r.body.length ≤ 30

/-- R182: a request's body has a length of the code's row. -/
def Request.lengthFits (r : Request) : Bool := r.kind.allowsLength r.body.length

/-- A request that the port may hand to a block. -/
def Request.wellFormed (r : Request) : Bool := r.shortEnough && r.lengthFits

/-- The port and the slot a command names are in range; the types of the operands see to it. -/
def Instr.wellFormed : Instr → Bool
  | .backoffExpiry slot | .deadlineExpiry slot | .leaseExpiry slot => slot.val < 24
  | .select p | .deselect p | .hello p | .openSession p | .closeSession p | .setAttn p | .noticeFetch p
  | .lineQuery p | .profileSet p | .profileGet p | .submit p | .keep p | .release p | .cancel p | .jobQuery p
  | .subscribe p | .unsubscribe p | .subEnable p | .subList p | .ringSet p | .ringRead p | .ringQuery p
  | .serialClockEdge p _ => p.val < 4
  | .fullReset straps => straps.toNat < 16
  | .lineTick | .millisecondTick | .detectMark | .detectSpace | .markTooLong | .leaderSpaceTooLong
  | .endGapReached | .closingGapReached | .holdWindowExpiry | .guardComplete | .repeatPeriodExpiry
  | .driveDone | .collision => true

end Sys2Proof
end

