-- ==== Sys2Proof/Tests/Slice0.lean ====
section
/-! SUPPORT. Tests: ill-formed requests that the checks refuse, at most two small tests a command with the values of the
manual's examples, and for each statement concrete states that meet its hypotheses. -/

-- The tests run one after another: run side by side, each waits for the kernel on a thread of its own, and the threads'
-- stacks together pass the memory limit of the check.
set_option Elab.async false

namespace Sys2Proof.Tests
open Sys2Proof Sys2Proof.Machine

/-! ### Small states -/

/-- The profile of the worked sequences (11_worked_sequences.md). -/
def prof : Profile :=
  { coding := .pdist, cellUs := 600, carrierKhz := 38, duty := 33, leaderMark := 12, leaderSpace := 6
    lengthMode := .fixed, fixedLen := 2, check := .sum8, repeatForm := .marker, repeatSpace := 3, repeatPeriodMs := 95
    holdWindowMs := 120, endGap := 10, guardCells := 10, backoffBaseMs := 10, attemptDefault := 3 }

/-- The bytes of a PROFILE_SET of that profile, from offset 2 on (R183). -/
def profBytes : List Byte := [0, 0x58, 0x02, 38, 33, 12, 6, 0, 2, 1, 1, 3, 95, 0, 120, 0, 10, 10, 10, 3]

/-- An open session of epoch 1. -/
def openPort : HostPort := { HostPort.reset with isOpen := true, epoch := 1 }

/-- Port 0's entry 0: address 0x2x on profile 0, all kinds. -/
def entry0 : Entry := { owner := 0, profile := 0, value := 0x20, mask := 0xF0, kinds := 31, enabled := true }

/-- A ring of depth 2. -/
def ring2 : Ring := { base := 4, depth := 2, policy := .keepOld, head := 0, count := 0, pendingMissed := 0 }

/-- A part with profile 0 defined, ports 0 and 1 open, and port 0 subscribed with a ring. -/
def part : State :=
  { State.reset with
    profiles := State.reset.profiles.set 0 (some prof), ports := (State.reset.ports.set 0 openPort).set 1 openPort
    entries := State.reset.entries.set 0 (some entry0), rings := State.reset.rings.set 0 (some ring2) }

/-- A request of port p waits for its answer. -/
def asking (s : State) (p : Port) (k : RequestKind) (body : List Byte) : State :=
  s.modifyPort p fun h => { h with txn := .executing, request := some ⟨k, 7, body⟩ }

/-- The state a command leaves. -/
def after (c : Instr) (s : State) : State :=
  match exec c s with
  | .next t => t
  | .fault _ | .refused _ => s

/-- The status and the body of port p's response. -/
def answerOf (s : State) (p : Port) : Option (Status × List Byte) := (s.port p).response.map fun r => (r.status, r.body)

/-- A job of port 0 with the frame 0x20, 0x10 0x0F. -/
def job : Job :=
  { owner := 0, epoch := 1, key := 0, cls := 1, kind := .oneshot, burstCount := none, profile := 0, address := 0x20
    data := [0x10, 0x0F], deadlineMs := none, lease := none, attemptLimit := 3, state := .queued, sent := 0
    attempts := 0, collisionsTotal := 0, merges := 0, started := false, cancelPending := false, endPending := none
    resumeFull := false, orphan := false, submitTag := 7, deadlineTimer := none, leaseTimer := none
    backoffTimer := none }

/-- A HELD job with a lease of 1000 ms. -/
def held : Job := { job with kind := .held, lease := some 10, leaseTimer := some 1000 }

/-- The job in slot 0 of the part. -/
def fill (s : State) (j : Job) : State := { s with jobs := s.jobs.set 0 { ticket := 9, job := some j } }

/-- The job in slot 0, waiting in the queue of class 1. -/
def queued (j : Job) : State := { fill part { j with state := .queued } with la := part.la.pushTail 1 0 }

/-- The job in slot 0, the candidate from its queue, with its guard at n of 6000 ticks. -/
def starting (j : Job) (n : Nat) : State :=
  { fill part { j with state := .starting } with
    la := { part.la with position := .candidate 0 .queue, guard := some { count := n, target := 6000 } } }

/-- The transmission of the job in slot 0, at a position of its segment list. -/
def driving (n : Nat) : Transmitter := { drive := some { job.buildDrive prof 0 with position := n }, disagree := 0, pin := 0 }

/-- The job in slot 0 is SENDING, with n segments of its frame driven. -/
def sending (j : Job) (n : Nat) : State :=
  { fill part { j with state := .sending, started := true } with
    la := { part.la with position := .holder 0, repeatTimer := some 30 }, tx := driving n
    rx := { part.rx with decoder := .echo } }

/-- The job in slot 0 is the holder in GAP, with its guard at n of 6000 ticks and its period at t. -/
def gap (j : Job) (n : Nat) (t : Timer) : State :=
  { fill part { j with state := .gap, started := true, sent := 1 } with
    la := { part.la with position := .holder 0, guard := some { count := n, target := 6000 }, repeatTimer := t } }

/-- The receiver at a level, with its counts and its decoder. -/
def hearing (level : Level) (count : Nat) (d : Decoder) : State :=
  { part with rx := { part.rx with level, quiet := if level = .space then count else 0, markTicks := count, decoder := d } }

/-- The decode of the whole frame 0x20, 0x10 0x0F with check byte c. -/
def heard (c : Byte) : Decoding :=
  { winner := 0, shape := .frame, expected := some 32, halves := []
    bits := [0x20, 0x10, 0x0F, c.toNat].flatMap (fieldBits 8) }

/-- A hold of the frame 0x20, 0x10 0x0F. -/
def hold : Hold :=
  { frame := { profile := 0, address := 0x20, data := [0x10, 0x0F] }, repeats := 1, startTime := 72, lastTime := 116 }

/-! ### Well-formed requests -/

/-- R163: no body has 31 bytes. -/
theorem test_wf_refuses_long_body : (⟨.submit, 0, List.replicate 31 0⟩ : Request).shortEnough = false := by decide

/-- R182: a KEEP has a body of 2 bytes. -/
theorem test_wf_refuses_length : (⟨.keep, 0, [1]⟩ : Request).lengthFits = false := by decide

theorem test_wf_refuses_request : (⟨.hello, 0, [1]⟩ : Request).wellFormed = false := by decide

theorem test_wf_accepts_submit : (⟨.submit, 0, List.replicate 11 0⟩ : Request).wellFormed = true := by decide

/-- R182: a code of no row names no request. -/
theorem test_code_unknown : RequestKind.ofCode 0x43 = none := by decide

/-- No row of the table gives bits. -/
theorem test_decode_none : decodeTableWord 8 0x01 = none := by decide

/-! ### The line and the clock -/

/-- R180, R4: a full reset ends the job and takes STN from the straps. -/
theorem test_full_reset : (after (.fullReset 5) (sending job 3)).stn = 5 ∧
    (after (.fullReset 5) (sending job 3)).job 0 = none := by decide +kernel

/-- R52: a tick of quiet line advances the guard; R77: a tick against DETECT counts a disagreement. -/
theorem test_line_tick_guard : (after .lineTick (starting job 5999)).la.guard = some { count := 6000, target := 6000 } := by
  decide +kernel

theorem test_line_tick_disagrees : (after .lineTick (sending job 0)).tx.disagree = 1 := by decide +kernel

/-- R2, R3. -/
theorem test_millisecond_tick :
    (after .millisecondTick { queued held with tickCount := 1000 }).ms = 1 ∧
      ((after .millisecondTick { queued held with tickCount := 1000 }).job 0).bind (·.leaseTimer) = some 999 := by
  decide +kernel

/-- R111: with profile 0 listening, a mark begins a leader. -/
theorem test_detect_mark : (after .detectMark (hearing .space 7000 .idle)).rx.decoder = .leaderMark := by decide +kernel

/-- R12: a leader mark of 12 cells of 600 µs is accepted from 5400 ticks on. -/
theorem test_detect_space_accepts :
    (after .detectSpace (hearing .mark 5400 .leaderMark)).rx.decoder = .leaderSpace [0] 7200 := by decide +kernel

theorem test_detect_space_noise : (after .detectSpace (hearing .mark 5399 .leaderMark)).rx.decoder = .tail none := by
  decide +kernel

/-- R111: the leader mark passes 9000 ticks. -/
theorem test_mark_too_long : (after .markTooLong (hearing .mark 9001 .leaderMark)).rx.decoder = .tail none ∧
    (after .markTooLong (hearing .mark 9000 .leaderMark)).rx.decoder = .leaderMark := by decide +kernel

/-- R112: a leader space of 6 cells passes 4500 ticks. -/
theorem test_leader_space_too_long :
    (after .leaderSpaceTooLong (hearing .space 4501 (.leaderSpace [0] 7200))).rx.decoder = .tail none ∧
      (after .leaderSpaceTooLong (hearing .space 4500 (.leaderSpace [0] 7200))).rx.decoder = .leaderSpace [0] 7200 := by
  decide +kernel

/-- R9, R118, R122: SUM8 of 0x20 0x10 0x0F is 0xC1; the good frame begins a hold and is offered to port 0. -/
theorem test_end_gap_good :
    ((after .endGapReached (hearing .space 6000 (.bits (heard 0xC1)))).rx.tracker.map (·.frame)) = some hold.frame ∧
      (after .endGapReached (hearing .space 6000 (.bits (heard 0xC1)))).ringCount 0 = 1 := by decide +kernel

theorem test_end_gap_bad_check :
    (after .endGapReached (hearing .space 6000 (.bits (heard 0xC0)))).rx.tracker = none := by decide +kernel

/-- R113: the noise gap of profile 0 is 6000 ticks. -/
theorem test_closing_gap : (after .closingGapReached (hearing .space 6000 (.tail none))).rx.decoder = .idle ∧
    (after .closingGapReached (hearing .space 5999 (.tail none))).rx.decoder = .tail none := by decide +kernel

/-- R124, R186: the RELEASE of the worked train, repeats 1, duration 44. -/
theorem test_hold_window_expiry :
    Memory.readSlot 4 (after .holdWindowExpiry
      { part with ms := 236, rx := { part.rx with tracker := some hold, holdTimer := some 0 } }).mem =
        [0x42, 0, 0, 0x20, 0x10, 0x0F, 0, 0, 0, 0, 1, 0, 0xEC, 0, 44, 0] := by decide +kernel

/-! ### Transmission -/

/-- R53: a complete guard starts the frame; the frame of the worked sequences lasts 101 cells. -/
theorem test_guard_complete : (after .guardComplete (starting job 6000)).la.position = .holder 0 ∧
    ((after .guardComplete (starting job 6000)).tx.drive.map fun d => (d.segments.map (·.ticks)).sum) =
      some (101 * 600) := by decide +kernel

/-- R69: the second transmission of a HELD job is a marker. -/
theorem test_repeat_period : ((after .repeatPeriodExpiry (gap held 6000 (some 0))).tx.drive.map (·.form)) = some .marker := by
  decide +kernel

theorem test_repeat_period_waits : (after .repeatPeriodExpiry (gap held 5999 (some 0))).la.periodDone = true := by
  decide +kernel

/-- R10: 38 kHz has a period of 211 CLK periods, 70 of them on. -/
theorem test_carrier : prof.carrierPeriod = 211 ∧ prof.carrierOn = 70 := by decide

/-- R13: the period test of the example passes at 95 ms and fails at 94. -/
theorem test_period : prof.passesPeriodTest = true ∧ { prof with repeatPeriodMs := 94 }.passesPeriodTest = false := by
  decide

/-- R75: a ONESHOT ends SENT at its frame end; a HELD job enters GAP. -/
theorem test_done_oneshot : (after .driveDone (sending job 67)).job 0 = none ∧
    ((after .driveDone (sending job 67)).port 0).notices.map (fun n => (n.outcome, n.sent)) = [(.sent, 1)] := by
  decide +kernel

theorem test_done_held : ((after .driveDone (sending held 67)).job 0).map (fun j => (j.state, j.sent)) = some (.gap, 1) := by
  decide +kernel

/-- R77 to R80: 301 ticks exceed half a cell; station 5 backs off for 10 + 2 × 5 ms. -/
theorem test_collision :
    ((after .collision { sending job 3 with stn := 5, tx := { driving 3 with disagree := 301 } }).job 0).map
      (fun j => (j.state, j.backoffTimer)) = some (.backoff, some 20) := by decide +kernel

theorem test_collision_not_yet :
    (after .collision { sending job 3 with tx := { driving 3 with disagree := 300 } }).jobIn 0 .sending = true := by
  decide +kernel

/-- The job in slot 0 in BACKOFF. -/
def backedOff (t : Timer) : State :=
  { fill part { job with state := .backoff, started := true, attempts := 1, backoffTimer := t } with
    la := part.la.pushBackoff 0 }

/-- R81: the job joins its queue and is selected. -/
theorem test_backoff_expiry : (after (.backoffExpiry 0) (backedOff (some 0))).la.position = .candidate 0 .queue := by
  decide +kernel

/-- R97. -/
theorem test_deadline_expiry :
    ((after (.deadlineExpiry 0) (queued { job with deadlineTimer := some 0 })).port 0).notices.map (·.outcome) =
      [.expired] := by decide +kernel

/-- R95: a lapse in SENDING waits for the frame's end. -/
theorem test_lease_expiry :
    ((after (.leaseExpiry 0) (sending { held with leaseTimer := some 0 } 3)).job 0).bind (·.endPending) = some .lapsed ∧
      ((after (.leaseExpiry 0) (gap { held with leaseTimer := some 0 } 0 none)).port 0).notices.map (·.outcome) =
        [.lapsed] := by decide +kernel

/-! ### The wires -/

/-- R162: an empty buffer shows 0x5A, whose first bit is 0; a response shows 0xA5, whose first bit is 1. -/
theorem test_select : ((after (.select 2) State.reset).port 2).sdo = some false ∧
    ((after (.select 0) (part.answered 0 .hello 1 .ok [])).port 0).sdo = some true := by decide +kernel

/-- R159: the eighth bit completes a byte, most significant bit first. -/
theorem test_clock_edge :
    ((after (.serialClockEdge 0 (.rising true)) (part.modifyPort 0 fun h => { h with
      selectLow := true, txn := .selected, bitsIn := [false, true, false, false, false, false, false] })).port 0).received =
        [0x41] := by decide +kernel

/-- A transaction of port 0 that received these bytes. -/
def clocked (bytes : List Byte) : State :=
  State.reset.modifyPort 0 fun h => { h with selectLow := true, txn := .selected, received := bytes }

/-- R163, R165: an OPEN with its check byte is pending; with another it is BAD_CHECK. -/
theorem test_deselect : ((after (.deselect 0) (clocked [0x00, 0x02, 0x01, 0xFD])).port 0).request =
    some ⟨.openSession, 0x01, []⟩ := by decide +kernel

theorem test_deselect_bad_check :
    (answerOf (after (.deselect 0) (clocked [0x00, 0x02, 0x01, 0xFC])) 0) = some (.badCheck, []) := by decide +kernel

/-! ### Requests -/

/-- R176: HELLO of a closed port after reset. -/
theorem test_hello : answerOf (after (.hello 2) (asking State.reset 2 .hello [])) 2 =
    some (.ok, [0x40, 0x02, 1, 0, 2, 0, 0, 4, 24, 4, 4, 16, 128, 64, 8, 3, 30, 4]) := by decide +kernel

/-- R172. -/
theorem test_open : answerOf (after (.openSession 2) (asking State.reset 2 .openSession [])) 2 = some (.ok, [1]) := by
  decide +kernel

/-- R174: a close with cut 0 leaves the job in SENDING as an orphan, and reports it. -/
theorem test_close : answerOf (after (.closeSession 0) (asking (sending job 3) 0 .closeSession [0])) 0 =
    some (.ok, [0, 1, 0, 0]) := by decide +kernel

/-- The close with cut 1 of the worked sequence: jobs_ended 1, orphaned no. -/
theorem test_close_cut : answerOf (after (.closeSession 0) (asking (sending job 3) 0 .closeSession [1])) 0 =
    some (.ok, [1, 0, 0, 0]) := by decide +kernel

theorem test_set_attn : answerOf (after (.setAttn 0) (asking part 0 .setAttn [4])) 0 = some (.ok, [4, 0]) := by
  decide +kernel

/-- R103, R185: a notice of slot 8, sent 2. -/
def note : Notice :=
  { slot := 8, ticket := 3, submitTag := 0x51, key := 0, outcome := .cancelled, sent := 2, collisionsTotal := 1
    merges := 0, endTime := 0x0102 }

theorem test_notice_fetch :
    answerOf (after (.noticeFetch 0) (asking (part.modifyPort 0 fun h => { h with notices := [note] }) 0 .noticeFetch [4])) 0 =
      some (.ok, [1, 0, 8, 3, 0x51, 0, 4, 2, 1, 0, 0x02, 0x01]) := by decide +kernel

/-- R67: the holder in SENDING, quiet line. -/
theorem test_line_query : answerOf (after (.lineQuery 0) (asking (sending job 3) 0 .lineQuery [])) 0 =
    some (.ok, [2, 0, 1, 2, 0, 0, 0, 0, 0, 0, 0, 0, 0, 0, 0, 0, 0, 0, 1]) := by decide +kernel

/-- R16: profile 0 is in use by an entry; profile 1 is not. -/
theorem test_profile_set_in_use :
    answerOf (after (.profileSet 1) (asking part 1 .profileSet ([0, 1] ++ profBytes))) 1 = some (.inUse, []) := by
  decide +kernel

theorem test_profile_set : (after (.profileSet 1) (asking part 1 .profileSet ([1, 1] ++ profBytes))).profile 1 = some prof := by
  decide +kernel

theorem test_profile_get : answerOf (after (.profileGet 1) (asking part 1 .profileGet [0])) 1 =
    some (.ok, [0, 1] ++ profBytes ++ [0, 1, 1]) := by decide +kernel

/-- A SUBMIT of class c, kind k and key n, with the frame 0x20, 0x10 0x0F. -/
def submitBytes (key cls kind burst lease : Byte) : List Byte :=
  [key, cls, kind, burst, 0, 0x20, 40, 0, lease, 0, 2, 0x10, 0x0F]

/-- R37: the job takes slot 0, its ticket rises, and it is selected. -/
theorem test_submit : answerOf (after (.submit 0) (asking part 0 .submit (submitBytes 9 2 0 0 0))) 0 = some (.ok, [0, 1]) ∧
    (after (.submit 0) (asking part 0 .submit (submitBytes 9 2 0 0 0))).la.position = .candidate 0 .queue := by
  decide +kernel

/-- R31: the merge of the worked sequence, with the class changed. -/
theorem test_submit_merges :
    answerOf (after (.submit 0) (asking (queued { job with key := 9 }) 0 .submit (submitBytes 9 2 0 0 0))) 0 =
      some (.merged, [0, 9]) := by decide +kernel

/-- R90: the lease restarts with 1000 ms. -/
theorem test_keep :
    ((after (.keep 0) (asking (queued { held with leaseTimer := some 3 }) 0 .keep [0, 9])).job 0).bind (·.leaseTimer) =
      some 1000 := by decide +kernel

/-- R42: the handle of another port's job. -/
theorem test_keep_not_owner : answerOf (after (.keep 1) (asking (queued held) 1 .keep [0, 9])) 1 = some (.notOwner, []) := by
  decide +kernel

/-- R91, R92. -/
theorem test_release_defers : answerOf (after (.release 0) (asking (sending held 3) 0 .release [0, 9])) 0 =
    some (.deferred, []) := by decide +kernel

theorem test_release_unstarted :
    ((after (.release 0) (asking (queued held) 0 .release [0, 9])).job 0).map (fun j => (j.kind, j.leaseTimer)) =
      some (.oneshot, none) := by decide +kernel

/-- R93. -/
theorem test_cancel :
    ((after (.cancel 0) (asking (gap held 0 none) 0 .cancel [0, 9])).port 0).notices.map (·.outcome) = [.cancelled] := by
  decide +kernel

/-- R43, R184. -/
theorem test_job_query : answerOf (after (.jobQuery 0) (asking (queued held) 0 .jobQuery [0, 9])) 0 =
    some (.ok, [0, 9, 0, 1, 2, 0, 0, 0x20, 2, 0x10, 0x0F, 0, 0, 0, 0, 0, 0, 0, 0, 3, 0, 0, 0, 0, 0, 0, 10, 0xE8, 3, 0, 0,
      7]) := by decide +kernel

/-- R129: the lowest free entry. -/
theorem test_subscribe : answerOf (after (.subscribe 1) (asking part 1 .subscribe [0, 0, 0, 5, 1])) 1 = some (.ok, [1]) := by
  decide +kernel

theorem test_unsubscribe : (after (.unsubscribe 0) (asking part 0 .unsubscribe [0])).entry 0 = none := by decide +kernel

theorem test_sub_enable : ((after (.subEnable 0) (asking part 0 .subEnable [0, 0])).entry 0).map (·.enabled) = some false := by
  decide +kernel

theorem test_sub_list : answerOf (after (.subList 0) (asking part 0 .subList [])) 0 = some (.ok, [1, 0xC0, 0x20, 0xF0, 31]) := by
  decide +kernel

/-- R146: 120 + 16 is more than 128. -/
theorem test_ring_set_range : answerOf (after (.ringSet 1) (asking part 1 .ringSet [120, 16, 0, 0])) 1 = some (.badRange, []) := by
  decide +kernel

theorem test_ring_set_overlap : answerOf (after (.ringSet 1) (asking part 1 .ringSet [5, 1, 0, 0])) 1 = some (.overlap, []) := by
  decide +kernel

/-- The part's ring of port 0 under a policy, with one record at its newest place. -/
def ringWith (policy : Policy) (depth count : Nat) : State :=
  { part with rings := part.rings.set 0 (some { ring2 with policy, depth, count }), mem := [(4 * 16, 0x42), (4 * 16 + 11, 2)] }

/-- R154: the record leaves the ring. -/
theorem test_ring_read : answerOf (after (.ringRead 0) (asking (ringWith .keepOld 2 1) 0 .ringRead [4])) 0 =
    some (.ok, [1, 1, 0, 0x42, 0, 0, 0, 0, 0, 0, 0, 0, 0, 0, 2, 0, 0, 0, 0]) := by decide +kernel

/-- R152, the overflow table: at depth 1 the new record carries the whole loss, 2 + 1. -/
theorem test_ring_overflow : Memory.read (4 * 16 + 11) ((ringWith .keepNew 1 1).deliver (.error 0 .check)).mem = 3 := by
  decide +kernel

theorem test_ring_query : answerOf (after (.ringQuery 1) (asking part 1 .ringQuery [])) 1 =
    some (.ok, [0, 0, 0, 0, 0, 0, 0, 1, 4, 2, 0, 0, 0, 0, 0, 0, 0, 0, 0]) := by decide +kernel

/-- The CRC8 example of 10_message_and_record_layouts.md, and its SUM8 example under COUNTED. -/
theorem test_check_bytes : { prof with check := .crc8, fixedLen := 1 }.checkByte 0x20 [0x10] = 0x6C ∧
    { prof with lengthMode := .counted }.checkByte 0x20 [0x0F] = 0xD0 := by decide +kernel

theorem test_step_takes_front : step { part with pending := [.lineTick, .select 0] } =
    exec .lineTick { part with pending := [.select 0] } := rfl

/-! ### Witnesses

Each theorem shows, for the statement it names, a concrete state with operands that meet its hypotheses, one for each
clause. -/

/-- The part with commands waiting. -/
def waiting (s : State) (c : Instr) : State := { s with pending := [c] }

theorem witness_FrontCommandRuns : State.reset.pending = [] := rfl

theorem witness_StateChangesByItsOwnCommands :
    (∃ t, exec .lineTick part = .next t) ∧ (∀ straps, Instr.lineTick ≠ .fullReset straps) ∧
      Instr.lineTick ≠ .millisecondTick ∧ (∀ p, Instr.lineTick ≠ .profileSet p) ∧ (∀ p, Instr.lineTick ≠ .submit p) ∧
      (∀ p, Instr.lineTick ≠ .subscribe p ∧ Instr.lineTick ≠ .unsubscribe p ∧ Instr.lineTick ≠ .subEnable p ∧
        Instr.lineTick ≠ .closeSession p) ∧
      ∀ p, Instr.lineTick ≠ .openSession p ∧ Instr.lineTick ≠ .setAttn p ∧ Instr.lineTick ≠ .select p ∧
        Instr.lineTick ≠ .deselect p ∧ ∀ e, Instr.lineTick ≠ .serialClockEdge p e := by
  refine ⟨⟨_, rfl⟩, ?_⟩
  simp

/-- One tick before the last of the leader mark, and its last tick. -/
theorem witness_LineTickAdvancesLine :
    part.tx.drive = none ∧
      ∃ d g, (driving 0).drive = some d ∧ d.segments[d.position]? = some g ∧ d.driven + 1 < g.ticks ∧
        { d with driven := 7199 }.segments[0]? = some g ∧ g.ticks ≤ 7199 + 1 ∧ (d.segments[1]?).isSome = true := by
  exact ⟨rfl, _, _, rfl, rfl, by decide +kernel, rfl, by decide +kernel, by decide +kernel⟩

theorem witness_MillisecondTickLowersTimers :
    1000 ≤ { part with tickCount := 1000 }.tickCount ∧ { part with tickCount := 999 }.tickCount < 1000 := by decide

theorem witness_ReceiverLeavesTheRest :
    Instr.markTooLong ∈ Claims.receiverCommands ∧ (∃ t, exec .markTooLong part = .next t) ∧
      Instr.markTooLong ≠ .detectMark ∧ Instr.markTooLong ≠ .endGapReached ∧ Instr.markTooLong ≠ .holdWindowExpiry :=
  ⟨by decide, ⟨_, rfl⟩, by decide, by decide, by decide⟩

/-- The least leader mark that profile 0 accepts. -/
theorem witness_TurnsOutsideBody :
    (hearing .space 7000 .idle).rx.level = .space ∧ (hearing .space 7000 .idle).rx.decoder = .idle ∧
      (∃ q, (hearing .space 7000 .idle).listening q = true) ∧ (∀ q, State.reset.listening q = false) ∧
      (hearing .space 1 .echo).rx.decoder = .echo ∧ (hearing .space 1 (.tail none)).rx.decoder = .tail none ∧
      (hearing .mark 5400 .leaderMark).rx.level = .mark ∧ (hearing .mark 5400 .leaderMark).rx.decoder = .leaderMark ∧
      (∃ q, Claims.acceptsLeader (hearing .mark 5400 .leaderMark) 5400 q) ∧
      (∀ q, ¬Claims.acceptsLeader State.reset 5400 q) ∧
      (hearing .mark 1 .echo).rx.decoder = .echo ∧ (hearing .mark 1 (.tail none)).rx.decoder = .tail none := by
  refine ⟨rfl, rfl, ⟨0, by decide +kernel⟩, by decide +kernel, rfl, rfl, rfl, rfl,
    ⟨0, by decide +kernel, prof, by decide +kernel, by decide, by decide⟩, ?_, rfl, rfl⟩
  rintro q ⟨h, -⟩
  exact absurd h ((by decide +kernel : ∀ q, ¬State.reset.listening q = true) q)

/-- A leader space of 6 cells, at its lower bound, and one of 1 tick. Under SPLIT: the exact middle of 6 and 6½ cells, one
tick above it, and a space accepted for 6½ cells alone. -/
theorem witness_LowestAcceptingCandidateWins :
    (hearing .space 2700 (.leaderSpace [0] 7200)).rx.level = .space ∧
      (hearing .space 2700 (.leaderSpace [0] 7200)).rx.decoder = .leaderSpace [0] 7200 ∧
      Claims.acceptsSpace (hearing .space 2700 (.leaderSpace [0] 7200)) [0] 2700 0 .frame ∧
      (∀ q' < (0 : ProfileId), ∀ shape,
        ¬Claims.acceptsSpace (hearing .space 2700 (.leaderSpace [0] 7200)) [0] 2700 q' shape) ∧
      (hearing .space 2700 (.leaderSpace [0] 7200)).profile 0 = some prof ∧ prof.lengthMode = .fixed ∧
      (3 * (13 * 600) ≤ 8 * 3750 ∧ 4 * 3750 ≤ 5 * (6 * 600) ∧ ¬25 * 600 < 4 * 3750) ∧
      (3 * (13 * 600) ≤ 8 * 3751 ∧ 25 * 600 < 4 * 3751) ∧ (8 * 4501 ≤ 5 * (13 * 600) ∧ ¬4 * 4501 ≤ 5 * (6 * 600)) ∧
      ∀ q shape, ¬Claims.acceptsSpace (hearing .space 1 (.leaderSpace [] 0)) [] 1 q shape := by
  refine ⟨rfl, rfl, ⟨by simp, by decide +kernel, prof, by decide +kernel, by decide⟩, ?_, by decide +kernel, rfl, by decide,
    by decide, by decide, ?_⟩
  · intro q' hq; exact absurd hq (Fin.not_lt_zero q')
  · rintro q shape ⟨h, -⟩; simp at h

/-- The bounds of the leader mark, of a body mark, of the leader space and of the two closing gaps. -/
theorem witness_LengthBoundsJudgeEarly :
    (hearing .mark 9001 .leaderMark).rx.decoder = .leaderMark ∧ 0 < (hearing .mark 9001 .leaderMark).rx.markTicks ∧
      (∀ q pr, (hearing .mark 9001 .leaderMark).listening q = true → (hearing .mark 9001 .leaderMark).profile q = some pr →
        5 * (pr.leaderMark * pr.cellUs) < 4 * 9001) ∧
      (∃ q pr, (hearing .mark 9000 .leaderMark).listening q = true ∧
        (hearing .mark 9000 .leaderMark).profile q = some pr ∧ 4 * 9000 ≤ 5 * (pr.leaderMark * pr.cellUs)) ∧
      (hearing .mark 751 (.bits (heard 0))).profile 0 = some prof ∧
      5 * (1 * prof.cellUs) < 4 * 751 ∧ 4 * 750 ≤ 5 * (1 * prof.cellUs) ∧ 5 * 7200 < 8 * 4501 ∧ 8 * 4500 ≤ 5 * 7200 ∧
      (hearing .space 6000 (.tail (some (0, 6000)))).rx.decoder = .tail (some (0, 6000)) ∧
      (hearing .space 6000 (.tail none)).rx.decoder = .tail none ∧ (∃ q, (hearing .space 6000 (.tail none)).listening q = true) ∧
      (∀ q, State.reset.listening q = false) := by
  refine ⟨rfl, by decide, ?_, ⟨0, prof, by decide +kernel, by decide +kernel, by decide⟩, by decide +kernel, by decide,
    by decide, by decide, by decide, rfl, rfl, ⟨0, by decide +kernel⟩, by decide +kernel⟩
  have hp : ∀ q, (hearing .mark 9001 .leaderMark).profile q = if q = 0 then some prof else none := by decide +kernel
  intro q pr _ h
  rw [hp] at h
  split at h
  · obtain rfl := Option.some.inj h
    decide
  · cases h

/-- A mark and a space in BITS; under SPLIT half a cell and a cell at their bounds, and half streams that a half begins,
completes, and exceeds. -/
theorem witness_TurnsInsideBody :
    (hearing .space 600 (.bits (heard 0))).rx.decoder = .bits (heard 0) ∧
      (hearing .space 600 (.bits (heard 0))).rx.level = .space ∧ (hearing .mark 600 (.bits (heard 0))).rx.level = .mark ∧
      (hearing .space 600 (.bits (heard 0))).profile (heard 0).winner = some prof ∧
      { heard 0 with shape := .marker }.shape = .marker ∧ (heard 0).shape = .frame ∧
      { prof with coding := .split }.coding = .split ∧
      (3 * prof.cellUs ≤ 8 * 225 ∧ 8 * 225 ≤ 5 * prof.cellUs) ∧ (3 * prof.cellUs ≤ 4 * 450 ∧ 4 * 450 ≤ 5 * prof.cellUs) ∧
      ¬(8 * 450 ≤ 5 * prof.cellUs) ∧ ¬(3 * prof.cellUs ≤ 8 * 224) ∧
      { heard 0 with halves := List.replicate 64 .mark }.closable { prof with coding := .split } = true ∧
      (heard 0).closable { prof with coding := .split } = false ∧
      (heard 0).expected = some 32 ∧ 2 * 32 ≤ (List.replicate 64 Level.mark).length ∧ (heard 0).halves.length < 2 * 32 ∧
      (heard 0).halves.length % 2 = 0 ∧ [Level.mark].length % 2 = 1 ∧ [Level.mark] = [] ++ [Level.mark] ∧
      Level.space ≠ Level.mark := by
  decide +kernel

/-- A PDIST and a PWIDTH body, marks and spaces at their bounds, and the twelfth bit of a COUNTED frame. -/
theorem witness_PulseBodyJudged :
    (heard 0).shape = .frame ∧ prof.coding = .pdist ∧ { prof with coding := .pwidth }.coding = .pwidth ∧
      (3 * prof.cellUs ≤ 4 * 450 ∧ 4 * 450 ≤ 5 * prof.cellUs) ∧ ¬(4 * 751 ≤ 5 * prof.cellUs) ∧
      (3 * (2 * prof.cellUs) ≤ 4 * 900 ∧ 4 * 900 ≤ 5 * (2 * prof.cellUs)) ∧
      (3 * (3 * prof.cellUs) ≤ 4 * 1350 ∧ 4 * 1350 ≤ 5 * (3 * prof.cellUs)) ∧
      (heard 0).expected = some (heard 0).bits.length ∧ { heard 0 with bits := [] }.expected ≠ some 0 ∧
      { prof with lengthMode := .counted }.lengthMode = .counted ∧ (List.replicate 11 true).length = 11 ∧
      7 ≤ bitsNumber ((List.replicate 11 true).drop 8 ++ [false]) ∧
      bitsNumber ((List.replicate 11 false).drop 8 ++ [false]) < 7 := by
  decide +kernel

/-- A marker, a truncated frame, a frame with a wrong check byte, and a good frame, each at the end gap. -/
theorem witness_EndGapClosesFrame :
    (hearing .space 6000 (.bits (heard 0xC1))).rx.decoder = .bits (heard 0xC1) ∧
      (hearing .space 6000 (.bits (heard 0xC1))).profile 0 = some prof ∧ prof.endGap * prof.cellUs ≤ 6000 ∧
      5999 < prof.endGap * prof.cellUs ∧ { heard 0 with shape := .marker }.shape = .marker ∧
      { heard 0 with bits := [] }.closable prof = false ∧ (heard 0xC1).closable prof = true ∧ prof.check ≠ .noCheck ∧
      (prof.fieldsOf (heard 0xC0).closedBits).2.2 ≠
        prof.checkByte (prof.fieldsOf (heard 0xC0).closedBits).1 (prof.fieldsOf (heard 0xC0).closedBits).2.1 ∧
      (prof.fieldsOf (heard 0xC1).closedBits).2.2 =
        prof.checkByte (prof.fieldsOf (heard 0xC1).closedBits).1 (prof.fieldsOf (heard 0xC1).closedBits).2.1 := by
  decide +kernel

theorem witness_TrackerFollowsHolds :
    part.rx.tracker = none ∧ { part.rx with tracker := some hold }.tracker = some hold ∧
      { hold.frame with address := 0x21 } ≠ hold.frame := by decide +kernel

theorem witness_EventOfferedOncePerPort :
    (∃ i x, part.entry i = some x ∧ x.owner = 0 ∧ x.selects (.new hold.frame) = true ∧ x.kinds.getLsbD 0 = true) ∧
      (¬∃ i x, part.entry i = some x ∧ x.owner = (1 : Port)) ∧ part.ring 0 = some ring2 ∧ Memory.wf part.mem = true ∧
      part.ringsLawful := by
  have he : ∀ i, part.entry i = if i = 0 then some entry0 else none := by decide +kernel
  have hr : ∀ p, part.ring p = if p = 0 then some ring2 else none := by decide +kernel
  refine ⟨⟨0, entry0, by decide +kernel, rfl, by decide, by decide⟩, ?_, by decide +kernel, rfl, ?_, ?_⟩
  · rintro ⟨i, x, h, ho⟩
    rw [he] at h
    split at h
    · cases h; exact absurd ho (by decide)
    · cases h
  · intro p r h
    rw [hr] at h
    split at h
    · cases h; exact ⟨by decide, by decide, by decide, by decide, by decide, by decide, by decide⟩
    · cases h
  · intro p q rp rq hne hp hq
    rw [hr] at hp hq
    split at hp
    · split at hq
      · subst_vars; exact absurd rfl hne
      · cases hq
    · cases hp

/-- Rings of the least and the greatest depth at the end of memory, not full and full, under each policy. -/
theorem witness_RingTakesOfferByPolicy :
    ring2.lawful ∧ ring2.count < ring2.depth ∧ { ring2 with count := 2, pendingMissed := 255 }.lawful ∧
      { ring2 with base := 127, depth := 1, count := 1, policy := .keepNew }.lawful ∧
      { ring2 with base := 64, depth := 64, count := 64, policy := .keepNew }.lawful ∧ Memory.wf [(64, 0x42)] = true := by
  unfold Ring.lawful
  decide

/-- A frame start that makes a marker, and one that makes a full frame. -/
theorem witness_FormChosenAtFrameStart :
    (gap held 6000 none).job 0 = some { held with state := .gap, started := true, sent := 1 } ∧
      (gap held 6000 none).profile 0 = some prof ∧ held.kind = .held ∧ prof.repeatForm = .marker ∧ held.resumeFull = false ∧
      (starting job 6000).job 0 = some { job with state := .starting } ∧ job.sent = 0 := by
  decide +kernel

theorem witness_FrameStartTakesTheLine :
    (starting job 6000).job 0 = some { job with state := .starting } ∧ (starting job 6000).profile 0 = some prof := by
  decide +kernel

theorem witness_GuardAndPeriodStartFrames :
    (starting job 6000).la.guard = some { count := 6000, target := 6000 } ∧
      (starting job 6000).la.position = .candidate 0 .queue ∧
      (gap held 6000 none).la.position = .holder 0 ∧ (gap held 6000 none).jobIn 0 .gap = true ∧
      (starting job 5999).la.guard = some { count := 5999, target := 6000 } ∧ part.la.guard = none ∧
      (gap held 6000 (some 0)).la.repeatTimer = some 0 ∧
      (gap held 5999 (some 0)).la.guard = some { count := 5999, target := 6000 } ∧
      { (sending held 3).la with repeatTimer := some 0 }.position = .holder 0 ∧ (sending held 3).jobIn 0 .sending = true ∧
      (gap held 6000 (some 1)).la.repeatTimer ≠ some 0 := by
  decide +kernel

/-- The last segment driven and one left; each way a job goes on or ends. -/
theorem witness_DoneEndsJobOrOpensGap :
    (sending job 67).tx = driving 67 ∧ (((driving 67).drive.map fun d => (d.segments.length, d.position)) = some (67, 67)) ∧
      (((driving 66).drive.map fun d => (d.segments.length, d.position)) = some (67, 66)) ∧
      (sending job 67).job 0 = some { job with state := .sending, started := true } ∧ part.tx.drive = none ∧
      job.orphan = false ∧ { job with orphan := true }.orphan = true ∧ { job with cancelPending := true }.kind = .oneshot ∧
      { held with cancelPending := true }.kind ≠ .oneshot ∧ { held with endPending := some .released }.cancelPending = false ∧
      { held with endPending := some .lapsed }.cancelPending = false ∧
      { job with kind := .burst, burstCount := some 2, sent := 1 }.burstCount = some (1 + 1) := by
  decide +kernel

/-- One tick past half a cell, and half a cell; each way a job ends or backs off. -/
theorem witness_CollisionEndsJobOrBacksOff :
    ((driving 3).drive.map fun d => d.cellUs) = some 600 ∧ 600 < 2 * 301 ∧ 2 * 300 ≤ 600 ∧
      { driving 3 with disagree := 301 }.drive = (driving 3).drive ∧
      (sending job 3).job 0 = some { job with state := .sending, started := true } ∧ part.tx.drive = none ∧
      (sending job 3).profile job.profile = some prof ∧ { job with attempts := 2 }.attempts + 1 = job.attemptLimit ∧
      job.attempts + 1 ≠ job.attemptLimit := by
  decide +kernel

theorem witness_JobTimersExpire :
    ((backedOff (some 0)).job 0).map (fun j => (j.state, j.backoffTimer)) = some (.backoff, some 0) ∧
      ((backedOff (some 1)).job 0).map (·.backoffTimer) = some (some 1) ∧
      ((queued { job with deadlineTimer := some 0 }).job 0).map (·.deadlineTimer) = some (some 0) ∧
      ((queued { job with deadlineTimer := some 1 }).job 0).map (·.deadlineTimer) = some (some 1) ∧
      ((gap { held with leaseTimer := some 0 } 0 none).job 0).map (fun j => (j.state, j.leaseTimer)) = some (.gap, some 0) ∧
      ((sending { held with leaseTimer := some 0 } 3).job 0).map (fun j => (j.state, j.leaseTimer)) =
        some (.sending, some 0) ∧
      ((queued held).job 0).map (·.leaseTimer) = some (some 1000) ∧ part.job 0 = none := by
  decide +kernel

/-- The job in slot 0 on the stack. -/
def suspended : State :=
  { fill part { held with state := .suspended, started := true } with la := part.la.pushStack 0 }

/-- In a state whose only job stands in slot 0, what every job is. -/
theorem only_job {s : State} {j : Job} (h : ∀ i, s.job i = if i = 0 then some j else none) (i : SlotId) (x : Job)
    (hx : s.job i = some x) : i = 0 ∧ x = j := by
  rw [h] at hx
  split at hx
  · exact ⟨‹_›, (Option.some.inj hx).symm⟩
  · cases hx

/-- A job on the stack alone, a job in a queue alone, and nothing waiting. -/
theorem witness_SelectionTakesTheMostUrgent :
    suspended.placesLawful ∧ suspended.la.position = .empty ∧ suspended.la.stack.getLast? = some 0 ∧
      (∀ c : Fin 4, suspended.la.queues[c] = []) ∧ (queued job).placesLawful ∧ (queued job).la.position = .empty ∧
      (queued job).la.queues[(1 : Fin 4)] = [0] ∧ (∀ c : Fin 4, 1 < c → (queued job).la.queues[c] = []) ∧
      (queued job).la.stack.getLast? = none ∧
      suspended.profile 0 = some prof ∧ part.la.stack = [] ∧ ∀ c : Fin 4, part.la.queues[c] = [] := by
  have h1 : ∀ i, suspended.job i = if i = 0 then some { held with state := .suspended, started := true } else none := by
    decide +kernel
  have h2 : ∀ i, (queued job).job i = if i = 0 then some { job with state := .queued } else none := by decide +kernel
  refine ⟨⟨by decide +kernel, by decide +kernel, ?_⟩, by decide +kernel, by decide +kernel, by decide +kernel,
    ⟨by decide +kernel, by decide +kernel, ?_⟩, by decide +kernel, by decide +kernel, by decide +kernel, by decide +kernel,
    by decide +kernel, by decide +kernel, by decide +kernel⟩
  · intro i j h
    obtain ⟨rfl, rfl⟩ := only_job h1 i j h
    show (0 : SlotId) ∈ suspended.la.stack
    decide +kernel
  · intro i j h
    obtain ⟨rfl, rfl⟩ := only_job h2 i j h
    show (0 : SlotId) ∈ (queued job).la.queues[(1 : Fin 4)]
    decide +kernel

/-- A job of class c in slot 0 with a job in slot 1 in the line position. -/
def beside (j k : Job) (position : LinePosition) : State :=
  { fill part j with
    jobs := (fill part j).jobs.set 1 { ticket := 1, job := some k }, la := { part.la with position } }

/-- A join beside an empty position, and beside a candidate of each origin, a holder in SENDING and one in GAP, of a
lower class and of the same class; a gap with nothing and with a higher class waiting. -/
theorem witness_JoinsAndGapsReactToUrgency :
    (queued job).job 0 = some job ∧ (queued job).la.position = .empty ∧ (queued job).profile job.profile = some prof ∧
      (beside job { job with cls := 0 } (.candidate 1 .queue)).job 1 = some { job with cls := 0 } ∧
      (beside job { job with cls := 0 } (.candidate 1 .stack)).la.position = .candidate 1 .stack ∧
      (beside job { job with cls := 0, state := .sending } (.holder 1)).la.position = .holder 1 ∧
      (beside job { held with cls := 0, state := .gap } (.holder 1)).job 1 = some { held with cls := 0, state := .gap } ∧
      (0 : Class) < job.cls ∧ job.cls ≤ held.cls ∧ (∀ c : Fin 4, job.cls < c → (queued job).la.queues[c] = []) ∧
      (queued { job with cls := 0 }).la.queues[(1 : Fin 4)] ≠ [] := by
  decide +kernel

/-- A job in the line position, and one that is not; a job whose notice is written. -/
theorem witness_JobEndWritesNoticeAndFreesSlot :
    (gap held 0 none).la.position.slot = some 0 ∧ (queued job).la.position.slot ≠ some 0 ∧
      (queued job).job 0 = some job ∧ job.orphan = false ∧ job.epoch = ((queued job).port job.owner).epoch ∧
      job.epoch ≠ (part.port 2).epoch := by
  decide +kernel

/-! ### Witnesses of the requests -/

/-- A request that is asked is asked. -/
theorem asking_asks (s : State) (p : Port) (k : RequestKind) (body : List Byte) : (asking s p k body).asks p k 7 body := by
  simp [State.asks, asking, State.modifyPort, State.port]

theorem witness_OpenStartsSession :
    (asking part 0 .openSession []).asks 0 .openSession 7 [] ∧ ((asking part 0 .openSession []).port 0).isOpen = true ∧
      (asking part 2 .openSession []).asks 2 .openSession 7 [] ∧ ((asking part 2 .openSession []).port 2).isOpen = false :=
  ⟨asking_asks .., by decide +kernel, asking_asks .., by decide +kernel⟩

/-- cut 0, 1 and 2, with a job in SENDING, and rings with a record waiting and without one. -/
theorem witness_CloseTearsDownSession :
    (asking (sending job 3) 0 .closeSession [0]).asks 0 .closeSession 7 [0] ∧
      (asking (sending job 3) 0 .closeSession [1]).asks 0 .closeSession 7 [1] ∧
      (asking (sending job 3) 0 .closeSession [2]).asks 0 .closeSession 7 [2] ∧
      1 < (2 : Byte).toNat ∧ (1 : Byte).toNat ≤ 1 ∧
      (asking (sending job 3) 0 .closeSession [1]).job 0 = some { job with state := .sending, started := true } ∧
      (asking (sending job 3) 0 .closeSession [1]).ring 0 = some ring2 ∧ State.reset.ring 0 = none ∧ ring2.lawful ∧
      { ring2 with count := 2 }.lawful ∧ part.ringsLawful :=
  ⟨asking_asks .., asking_asks .., asking_asks .., by decide, by decide, by decide +kernel, by decide +kernel,
    by decide +kernel, witness_RingTakesOfferByPolicy.1, by unfold Ring.lawful; decide,
    witness_EventOfferedOncePerPort.2.2.2.2⟩

/-- Thresholds 0, 1, 64 and 65. -/
theorem witness_SetAttnSetsThreshold :
    (∀ n, (asking part 0 .setAttn [n]).asks 0 .setAttn 7 [n]) ∧ (0 : Byte).toNat = 0 ∧ 1 ≤ (1 : Byte).toNat ∧
      (64 : Byte).toNat ≤ 64 ∧ 64 < (65 : Byte).toNat :=
  ⟨fun _ => asking_asks .., by decide⟩

/-- Counts 0, 1, 4 and 5. -/
theorem witness_NoticeFetchRemovesOldest :
    (∀ n, (asking part 0 .noticeFetch [n]).asks 0 .noticeFetch 7 [n]) ∧ (0 : Byte).toNat = 0 ∧ 1 ≤ (1 : Byte).toNat ∧
      (4 : Byte).toNat ≤ 4 ∧ 4 < (5 : Byte).toNat :=
  ⟨fun _ => asking_asks .., by decide⟩

theorem witness_ReportsChangeNothing :
    (asking part 0 .hello []).asks 0 .hello 7 [] ∧ (asking part 0 .subList []).asks 0 .subList 7 [] ∧
      (asking part 0 .ringQuery []).asks 0 .ringQuery 7 [] :=
  ⟨asking_asks .., asking_asks .., asking_asks ..⟩

theorem witness_LineQueryShowsArbiter :
    (asking suspended 0 .lineQuery []).asks 0 .lineQuery 7 [] ∧ suspended.la.stack.length ≤ 3 ∧
      suspended.la.position = .empty ∧ suspended.la.stack[0]? = some 0 ∧ (suspended.job 0).isSome = true ∧
      (starting job 0).la.position = .candidate 0 .queue ∧ (gap held 0 none).la.position = .holder 0 :=
  ⟨asking_asks .., by decide +kernel⟩

/-- The period test at 95 and 94 ms, fields at the bounds of their ranges and one past each kind of bound, a profile that is
used and one that is not. -/
theorem witness_ProfileRequestsSetAndShow :
    profBytes.length = 20 ∧ (∀ n d, (asking part 1 .profileSet (n :: d :: profBytes)).asks 1 .profileSet 7 (n :: d :: profBytes)) ∧
      3 < (4 : Byte).toNat ∧ 1 < (2 : Byte).toNat ∧ (1 : Byte) = BitVec.ofNat 8 (1 : ProfileId).val ∧
      Claims.fieldsInRange (1 :: 1 :: profBytes) ∧ Claims.profileIn (1 :: 1 :: profBytes) = prof ∧
      Claims.fieldsInRange
        [0, 1, 2, 0xA0, 0x0F, 80, 50, 32, 32, 1, 6, 2, 1, 32, 0xF4, 0x01, 0xE8, 0x03, 64, 64, 100, 15] ∧
      ¬Claims.fieldsInRange (1 :: 1 :: profBytes.set 0 3) ∧ ¬Claims.fieldsInRange (1 :: 1 :: profBytes.set 3 19) ∧
      ¬Claims.fieldsInRange (1 :: 1 :: profBytes.set 19 0) ∧
      94 * 1000 < (Claims.worstFrame prof + prof.endGap) * prof.cellUs ∧
      (Claims.worstFrame prof + prof.endGap) * prof.cellUs ≤ 95 * 1000 ∧
      part.entry 0 = some entry0 ∧ entry0.enabled = true ∧ entry0.profile = 0 ∧ part.inUse 1 = false ∧
      (∀ n, (asking part 1 .profileGet [n]).asks 1 .profileGet 7 [n]) ∧ part.profile 1 = none ∧ part.profile 0 = some prof := by
  refine ⟨rfl, fun _ _ => asking_asks .., ?_⟩
  refine ⟨by decide, by decide, by decide, ?_, by decide +kernel, ?_, ?_, ?_, ?_, by decide, by decide, by decide +kernel, rfl,
    rfl, by decide +kernel, fun _ => asking_asks .., by decide +kernel, by decide +kernel⟩
  all_goals
    unfold Claims.fieldsInRange
    decide +kernel

/-- A HELD submission with every field at a bound of its range. -/
def sub : Submission :=
  { key := 9, cls := 1, kind := .held, burstCount := none, profile := 0, address := 0x20, data := [0x10, 0x0F]
    deadlineMs := some 60000, lease := some 255, attemptLimit := some 15 }

theorem sub_inRange : Claims.submissionInRange sub 2 := by
  refine ⟨.inr (.inr ⟨rfl, rfl, rfl, 255, rfl, by decide, by decide⟩), ?_, ?_, by decide⟩
  · intro n h; cases h; decide
  · intro n h; cases h; decide

/-- A class of 4; no profile, a data list that does not fit, a full notice room, a full table, and the lowest slot free. -/
theorem witness_SubmitAllocatesLowestSlot :
    (asking part 0 .submit (submitBytes 9 4 0 0 0)).asks 0 .submit 7 (submitBytes 9 4 0 0 0) ∧
      3 < ((submitBytes 9 4 0 0 0).getD 1 0).toNat ∧ Claims.submissionInRange sub 2 ∧
      (asking part 0 .submit (Claims.submitBody sub 2)).asks 0 .submit 7 (Claims.submitBody sub 2) ∧
      State.reset.profile sub.profile = none ∧ part.profile sub.profile = some prof ∧ sub.data.length = prof.fixedLen ∧
      { sub with data := [] }.data.length ≠ prof.fixedLen ∧ (∀ i, ¬Claims.mergesInto part 0 sub.key i) ∧
      8 ≤ (part.modifyPort 0 fun h => { h with notices := List.replicate 8 note }).noticeSum 0 ∧ part.noticeSum 0 < 8 ∧
      (∀ i, { part with jobs := Vector.replicate 24 { ticket := 0, job := some job } }.job i ≠ none) ∧
      part.job 0 = none ∧ ∀ k < (0 : SlotId), part.job k ≠ none := by
  refine ⟨asking_asks .., by decide, sub_inRange, asking_asks .., by decide +kernel, by decide +kernel, rfl, by decide, ?_, by decide +kernel,
    by decide +kernel, by decide +kernel, by decide +kernel, fun k h => absurd h (Fin.not_lt_zero k)⟩
  rintro i ⟨-, j, h, -⟩
  rw [(by decide +kernel : ∀ i, part.job i = none) i] at h
  cases h

/-- A merge into a job that is QUEUED and into one that is STARTING, with the class kept and changed. -/
theorem witness_SubmitMergesIntoUnstartedJob :
    Claims.submissionInRange sub 2 ∧
      (asking (queued { job with key := 9 }) 0 .submit (Claims.submitBody sub 2)).asks 0 .submit 7 (Claims.submitBody sub 2) ∧
      (queued { job with key := 9 }).profile sub.profile = some prof ∧ sub.data.length = prof.fixedLen ∧
      Claims.mergesInto (queued { job with key := 9 }) 0 sub.key 0 ∧
      Claims.mergesInto (starting { job with key := 9 } 0) 0 sub.key 0 ∧
      (∀ k < (0 : SlotId), ¬Claims.mergesInto (queued { job with key := 9 }) 0 sub.key k) ∧ sub.cls = job.cls ∧
      { sub with cls := 2 }.cls ≠ job.cls :=
  ⟨sub_inRange, asking_asks .., by decide +kernel, rfl,
    ⟨by decide, { job with key := 9 }, by decide +kernel, rfl, rfl, rfl, .inl rfl⟩,
    ⟨by decide, { job with key := 9, state := .starting }, by decide +kernel, rfl, rfl, rfl, .inr rfl⟩,
    fun k h => absurd h (Fin.not_lt_zero k), rfl, by decide⟩

/-- A handle of a job that is asked about names it. -/
theorem names_held : Claims.names (asking (queued held) 0 .keep [0, 9]) 0 9 0 held :=
  ⟨by decide, by decide +kernel, by decide +kernel, rfl⟩

/-- A handle with another ticket, and a handle of port 0's job in a request of port 1. -/
theorem witness_HandleCheckedBeforeRequest :
    Claims.handleCommand 0 .keep = some (.keep 0) ∧
      (asking (queued held) 0 .keep [0, 8]).asks 0 .keep 7 [0, 8] ∧
      (¬∃ i j, Claims.names (asking (queued held) 0 .keep [0, 8]) 0 8 i j) ∧
      (asking (queued held) 1 .keep [0, 9]).asks 1 .keep 7 [0, 9] ∧
      Claims.names (asking (queued held) 1 .keep [0, 9]) 0 9 0 held ∧ held.owner ≠ 1 := by
  refine ⟨rfl, asking_asks .., ?_, asking_asks .., ⟨by decide, by decide +kernel, by decide +kernel, rfl⟩, by decide⟩
  rintro ⟨i, j, h, -, ht, -⟩
  exact absurd ht ((by decide +kernel :
    ∀ i, (asking (queued held) 0 .keep [0, 8]).ticket i ≠ 8) i)

/-- A HELD job, one whose lease lapsed in SENDING, and a ONESHOT. -/
theorem witness_KeepRestartsLease :
    (asking (queued held) 0 .keep [0, 9]).asks 0 .keep 7 [0, 9] ∧
      Claims.names (asking (queued held) 0 .keep [0, 9]) 0 9 0 held ∧ held.owner = 0 ∧ held.kind = .held ∧
      held.endPending ≠ some .lapsed ∧ job.kind ≠ .held ∧
      Claims.names (asking (sending { held with endPending := some .lapsed } 3) 0 .keep [0, 9]) 0 9 0
        { held with endPending := some .lapsed, state := .sending, started := true } :=
  ⟨asking_asks .., names_held, rfl, rfl, by decide, by decide, by decide, by decide +kernel, by decide +kernel, rfl⟩

/-- A HELD job in its queue, in SENDING with and without an end pending, and in GAP; and a ONESHOT. -/
theorem witness_ReleaseAndCancelEndOrDefer :
    (asking (queued held) 0 .release [0, 9]).asks 0 .release 7 [0, 9] ∧
      Claims.names (asking (queued held) 0 .release [0, 9]) 0 9 0 held ∧ held.owner = 0 ∧ held.state = .queued ∧
      held.started = false ∧ job.kind ≠ .held ∧
      Claims.names (asking (sending held 3) 0 .release [0, 9]) 0 9 0 { held with state := .sending, started := true } ∧
      held.endPending = none ∧ held.cancelPending = false ∧
      Claims.names (asking (sending { held with cancelPending := true } 3) 0 .release [0, 9]) 0 9 0
        { held with state := .sending, started := true, cancelPending := true } ∧
      Claims.names (asking (gap held 0 none) 0 .release [0, 9]) 0 9 0
        { held with state := .gap, started := true, sent := 1 } ∧
      (asking (sending held 3) 0 .cancel [0, 9]).asks 0 .cancel 7 [0, 9] ∧
      Claims.names (asking (sending held 3) 0 .cancel [0, 9]) 0 9 0 { held with state := .sending, started := true } ∧
      (asking (queued held) 0 .cancel [0, 9]).asks 0 .cancel 7 [0, 9] ∧
      Claims.names (asking (queued held) 0 .cancel [0, 9]) 0 9 0 held ∧ held.state ≠ .sending :=
  ⟨asking_asks .., ⟨by decide, by decide +kernel, by decide +kernel, rfl⟩, rfl, rfl, rfl, by decide,
    ⟨by decide, by decide +kernel, by decide +kernel, rfl⟩, rfl, rfl,
    ⟨by decide, by decide +kernel, by decide +kernel, rfl⟩, ⟨by decide, by decide +kernel, by decide +kernel, rfl⟩,
    asking_asks .., ⟨by decide, by decide +kernel, by decide +kernel, rfl⟩, asking_asks ..,
    ⟨by decide, by decide +kernel, by decide +kernel, rfl⟩, by decide⟩

/-- A QUEUED job at the head, a SUSPENDED job on top, and a candidate. -/
theorem witness_JobQueryShowsRecord :
    (asking (queued held) 0 .jobQuery [0, 9]).asks 0 .jobQuery 7 [0, 9] ∧
      Claims.names (asking (queued held) 0 .jobQuery [0, 9]) 0 9 0 held ∧ held.owner = 0 ∧ held.data.length ≤ 6 ∧
      (asking (queued held) 0 .jobQuery [0, 9]).la.queues[held.cls] = [] ++ 0 :: [] ∧
      suspended.la.stack = [] ++ 0 :: [] ∧ { held with state := .starting }.state ≠ .queued := by
  refine ⟨asking_asks .., ⟨by decide, by decide +kernel, by decide +kernel, rfl⟩, rfl, by decide, by decide +kernel,
    by decide +kernel, by decide⟩

/-- Kinds 0, 1, 31 and 32, profile 3 and 4, flag 1 and 2; a table with room and a full one. -/
theorem witness_SubscribeTakesLowestEntry :
    (asking part 1 .subscribe [0, 0, 0, 31, 1]).asks 1 .subscribe 7 [0, 0, 0, 31, 1] ∧
      (asking part 1 .subscribe [4, 0, 0, 32, 2]).asks 1 .subscribe 7 [4, 0, 0, 32, 2] ∧
      3 < (4 : Byte).toNat ∧ 31 < (32 : Byte).toNat ∧ 1 < (2 : Byte).toNat ∧ (31 : Byte).toNat ≤ 31 ∧
      (0 : Byte) = BitVec.ofNat 8 (0 : ProfileId).val ∧ part.profile 0 ≠ none ∧ part.profile 3 = none ∧
      part.entry 1 = none ∧ (∀ e < (1 : EntryId), part.entry e ≠ none) ∧
      ∀ e, { part with entries := Vector.replicate 16 (some entry0) }.entry e ≠ none :=
  ⟨asking_asks .., asking_asks .., by decide, by decide, by decide, by decide, rfl, by decide +kernel, by decide +kernel,
    by decide +kernel, by decide +kernel, by decide +kernel⟩

/-- An id of a free entry and one of an entry in use, from its owner and from another port, with each flag. -/
theorem witness_EntryRequestsActOnOwnEntries :
    (∀ p id, (asking part p .unsubscribe [id]).asks p .unsubscribe 7 [id]) ∧
      (∀ p id flag, (asking part p .subEnable [id, flag]).asks p .subEnable 7 [id, flag]) ∧
      part.entry 0 = some entry0 ∧ entry0.owner = 0 ∧ entry0.owner ≠ 1 ∧ (0 : Byte) = BitVec.ofNat 8 (0 : EntryId).val ∧
      (∀ (e : EntryId) x, (16 : Byte) = BitVec.ofNat 8 e.val → part.entry e ≠ some x) ∧ 1 < (2 : Byte).toNat ∧
      (1 : Byte) = (if entry0.enabled then 1 else 0) ∧ { entry0 with enabled := false }.enabled = false ∧
      State.reset.profile entry0.profile = none ∧ part.profile entry0.profile ≠ none := by
  refine ⟨fun _ _ => asking_asks .., fun _ _ _ => asking_asks .., by decide +kernel, rfl, by decide, rfl, ?_, by decide, rfl, rfl,
    by decide +kernel, by decide +kernel⟩
  intro e x h
  exact absurd h ((by decide : ∀ e : EntryId, ¬(16 : Byte) = BitVec.ofNat 8 e.val) e)

theorem witness_DepartedProfileStopsDecode :
    (hearing .space 1 (.leaderSpace [0, 1] 7200)).rx.decoder = .leaderSpace [0, 1] 7200 ∧
      (hearing .space 1 (.bits (heard 0))).rx.decoder = .bits (heard 0) ∧
      (hearing .space 1 (.tail (some (0, 6000)))).rx.decoder = .tail (some (0, 6000)) ∧ part.rx.decoder = .idle ∧
      part.listening 0 = true ∧ part.listening 1 = false := by
  decide +kernel

/-- Base 127 and depth 1 and 64 at the end of memory; one past it; slots of port 0's ring; a ring with a record. -/
theorem witness_RingSetPlacesEmptyRing :
    (∀ p b d x y, (asking part p .ringSet [b, d, x, y]).asks p .ringSet 7 [b, d, x, y]) ∧ 127 < (128 : Byte).toNat ∧
      64 < (65 : Byte).toNat ∧ (127 : Byte).toNat ≤ 127 ∧ (64 : Byte).toNat ≤ 64 ∧
      ¬(128 < (127 : Byte).toNat + (1 : Byte).toNat) ∧ 128 < (127 : Byte).toNat + (2 : Byte).toNat ∧
      part.ring 0 = some ring2 ∧ (5 : Byte).toNat < ring2.base + ring2.depth ∧
      ring2.base < (5 : Byte).toNat + (1 : Byte).toNat ∧ ¬((6 : Byte).toNat < ring2.base + ring2.depth) ∧
      0 < (ringWith .keepOld 2 1).ringCount 0 ∧ part.ring 1 = none ∧ ring2.lawful ∧ Memory.wf part.mem = true := by
  refine ⟨fun _ _ _ _ _ => asking_asks .., by decide, by decide, by decide, by decide, by decide, by decide,
    by decide +kernel, by decide, by decide, by decide, by decide +kernel, by decide +kernel, ?_, by decide⟩
  unfold Ring.lawful
  decide

theorem witness_RingReadRemovesOldest :
    (∀ p n, (asking part p .ringRead [n]).asks p .ringRead 7 [n]) ∧ (0 : Byte).toNat = 0 ∧ 4 < (5 : Byte).toNat ∧
      1 ≤ (1 : Byte).toNat ∧ (4 : Byte).toNat ≤ 4 ∧ part.ring 1 = none ∧ part.ring 0 = some ring2 ∧ ring2.lawful := by
  refine ⟨fun _ _ => asking_asks .., by decide, by decide, by decide, by decide, by decide +kernel, by decide +kernel, ?_⟩
  unfold Ring.lawful
  decide

/-! ### Witnesses of the ports -/

/-- A port in a transaction, its clock high, with n bits of a byte in. -/
def busy (n : Nat) : HostPort :=
  { openPort with selectLow := true, clockHigh := true, txn := .selected, bitsIn := List.replicate n true }

theorem witness_WiresMoveOwnPort :
    (busy 0).selectLow = true ∧ openPort.selectLow = false ∧ openPort.txn = .idle ∧ openPort.response = none ∧
      ((part.answered 0 .hello 1 .ok []).port 0).response = some ⟨0x01, 1, .ok, []⟩ ∧
      ((asking part 0 .hello []).port 0).txn = .executing ∧ (busy 0).clockHigh = true ∧ openPort.clockHigh = false ∧
      ¬(openPort.txn = .selected ∧ openPort.refused = false) ∧ { busy 6 with clockHigh := false }.bitsIn.length < 7 ∧
      { busy 7 with clockHigh := false }.bitsIn.length = 7 ∧ (busy 7).txn = .selected ∧ (busy 7).refused = false ∧
      ¬({ openPort with clockHigh := true }.txn = .selected ∨ { openPort with clockHigh := true }.refused = true) := by
  decide +kernel

/-- Bytes for each check: none, 0xFF, a length of 31 and of 254, too few, a wrong sum, an unknown code, a length the code
does not have, a session that is closed, and requests to hand on. -/
theorem witness_DeselectJudgesEnvelope :
    openPort.selectLow = false ∧ (busy 0).selectLow = true ∧ { busy 0 with refused := true }.refused = true ∧
      (busy 0).txn = .selected ∧ (clocked []).port 0 ≠ (clocked [0xFF]).port 0 ∧
      ((clocked [0xFF]).port 0).received = 0xFF :: [] ∧ 31 ≤ (31 : Byte).toNat ∧ (254 : Byte).toNat ≤ 254 ∧
      [(0x02 : Byte), 0x01].length < (0 : Byte).toNat + 3 ∧
      ((0x00 : Byte) :: [0x02, 0x01, 0xFC].take 3).sum ≠ 0 ∧ ((0x00 : Byte) :: [0x02, 0x01, 0xFD].take 3).sum = 0 ∧
      (∀ k : RequestKind, k.code = 0x02 → k = .openSession) ∧ ((0x00 : Byte) :: [0x43, 0x01, 0xBC].take 3).sum = 0 ∧
      (∀ k : RequestKind, k.code ≠ 0x43) ∧ RequestKind.allowsLength .openSession 1 = false ∧
      RequestKind.allowsLength .openSession 0 = true ∧ RequestKind.allowsLength .lineQuery 0 = true ∧
      ((clocked []).port 0).isOpen = false ∧ (busy 0).isOpen = true ∧
      (30 : Byte).toNat ≤ 30 := by
  refine ⟨rfl, rfl, rfl, rfl, by decide +kernel, by decide +kernel, by decide, by decide, by decide, by decide, by decide, ?_, by decide,
    ?_, rfl, rfl, rfl, by decide +kernel, rfl, by decide⟩
  · intro k; cases k <;> decide
  · intro k; cases k <;> decide

/-- An OPEN, and a SUBMIT of the longest body. -/
theorem witness_RequestClockedInIsPending :
    (State.reset.port 1).selectLow = false ∧ (State.reset.port 1).clockHigh = false ∧ (State.reset.port 1).txn = .idle ∧
      (State.reset.port 1).refused = false ∧ RequestKind.allowsLength .openSession 0 = true ∧
      (BitVec.ofNat 8 0 :: RequestKind.code .openSession :: 0x01 :: [] ++ [(0xFD : Byte)]).sum = 0 ∧
      (part.port 1).isOpen = true ∧ RequestKind.allowsLength .submit 17 = true := by
  decide +kernel

/-! ### Witnesses of the encodings -/

theorem witness_PulseFrameDecodesToItself :
    prof.coding ≠ .split ∧ 100 ≤ prof.cellUs ∧ { prof with cellUs := 100 }.cellUs = 100 ∧
      (prof.lengthMode = .fixed → [(0x10 : Byte), 0x0F].length = prof.fixedLen) ∧ [(0x10 : Byte), 0x0F].length ≤ 6 := by
  decide

theorem witness_SplitFrameDecodesToItself :
    { prof with coding := .split, cellUs := 101 }.coding = .split ∧ 100 ≤ { prof with cellUs := 101 }.cellUs ∧
      1 ≤ prof.leaderSpace := by
  decide

/-! ### Witnesses of the invariants: a job in SENDING with a tick to take -/

/-- The job in slot 0 is SENDING, and a tick waits. -/
def atWork : State := waiting (sending held 3) .lineTick

theorem atWork_job : ∀ i, atWork.job i = if i = 0 then some { held with state := .sending, started := true } else none := by
  decide +kernel

theorem atWork_steps : ∃ t, step atWork = .next t := ⟨_, rfl⟩

theorem witness_FrameMemoryStaysCanonical : Memory.wf atWork.mem = true ∧ ∃ t, step atWork = .next t :=
  ⟨rfl, atWork_steps⟩

theorem witness_AttentionFollowsItsCondition : atWork.attentionLawful ∧ ∃ t, step atWork = .next t :=
  ⟨by unfold State.attentionLawful; decide +kernel, atWork_steps⟩

theorem atWork_arbiterLawful : atWork.arbiterLawful := by
  refine ⟨⟨by decide +kernel, by decide +kernel, ?_⟩, ?_, ?_, ?_⟩
  · intro i j h
    obtain ⟨rfl, rfl⟩ := only_job atWork_job i j h
    rfl
  · intro i
    have h : ∀ i, atWork.jobIn i .sending = decide (i = 0) := by decide +kernel
    rw [h]
    constructor
    · intro h; exact ⟨_, rfl, (of_decide_eq_true h).symm⟩
    · rintro ⟨d, hd, rfl⟩
      obtain rfl := Option.some.inj hd
      rfl
  · intro i j h hs
    obtain ⟨rfl, rfl⟩ := only_job atWork_job i j h
    cases hs
  · intro i j h hs
    obtain ⟨rfl, rfl⟩ := only_job atWork_job i j h
    cases hs

theorem witness_JobsStandWhereTheirStateSays : atWork.arbiterLawful ∧ ∃ t, step atWork = .next t :=
  ⟨atWork_arbiterLawful, atWork_steps⟩

theorem witness_StackAndSelectionStayLawful :
    atWork.arbiterLawful ∧ atWork.stackLawful ∧ atWork.selectionLawful ∧ ∃ t, step atWork = .next t := by
  refine ⟨atWork_arbiterLawful, ⟨by decide +kernel, by decide +kernel, ?_, ?_⟩, ?_, atWork_steps⟩
  · intro i _ t h; cases h
  · rintro i (h | h)
    · cases h
    · exact absurd h ((by decide +kernel : ∀ i, ¬atWork.jobIn i .gap = true) i)
  · intro h; cases h

theorem witness_ReferencedProfilesStayDefined : atWork.referencesLawful ∧ ∃ t, step atWork = .next t := by
  refine ⟨⟨?_, ?_⟩, atWork_steps⟩
  · intro i j h
    obtain ⟨rfl, rfl⟩ := only_job atWork_job i j h
    decide +kernel
  · intro e x h _
    rw [(by decide +kernel : ∀ e, atWork.entry e = if e = 0 then some entry0 else none) e] at h
    split at h
    · cases h; decide +kernel
    · cases h

theorem witness_RingsStayApartAndInBounds : atWork.ringsLawful ∧ ∃ t, step atWork = .next t :=
  ⟨witness_EventOfferedOncePerPort.2.2.2.2, atWork_steps⟩

theorem witness_NoticeRoomIsNeverExceeded : atWork.noticeRoomLawful ∧ ∃ t, step atWork = .next t :=
  ⟨by unfold State.noticeRoomLawful; decide +kernel, atWork_steps⟩

theorem witness_PortsStayConsistent : atWork.portsLawful ∧ atWork.responsesLawful ∧ ∃ t, step atWork = .next t := by
  refine ⟨?_, ?_, atWork_steps⟩
  · unfold State.portsLawful HostPort.lawful
    decide +kernel
  · intro p r h
    rw [(by decide +kernel : ∀ p, (atWork.port p).response = none) p] at h
    cases h

theorem witness_SessionsOwnWhatTheyHold : atWork.arbiterLawful ∧ atWork.sessionsLawful ∧ ∃ t, step atWork = .next t := by
  refine ⟨atWork_arbiterLawful, ⟨?_, ?_, by decide +kernel, by decide +kernel, ?_⟩, atWork_steps⟩
  · intro p r h
    rw [(by decide +kernel : ∀ p, (atWork.port p).request = none) p] at h
    cases h
  · intro e x h
    rw [(by decide +kernel : ∀ e, atWork.entry e = if e = 0 then some entry0 else none) e] at h
    split at h
    · cases h; decide +kernel
    · cases h
  · intro i j h
    obtain ⟨rfl, rfl⟩ := only_job atWork_job i j h
    decide +kernel

end Sys2Proof.Tests
end

section
/-! PROOFS. What a command can do to the pieces of state that belong to few commands: STN, MS, the profiles, the
tickets, the profile that a job names, the entries, and of a port its session and its wires. Every command first makes
the change of its own, `State.OwnChange`, and then keeps all of these, `State.KeepsOwned`. -/

-- The proofs run one after another: side by side, the stacks of their threads pass the memory limit of the check.
set_option Elab.async false

namespace Sys2Proof.Machine

/-! ### Keeping what others own -/

/-- The pieces of state that belong to few commands are in t what they are in s. Every job of t names the profile that
the job of its slot named in s. Of a port, its transaction state, its pending request, its response, its notices and its
attention line are left open. -/
structure State.KeepsOwned (s t : State) : Prop where
  stn      : t.stn = s.stn
  ms       : t.ms = s.ms
  profiles : t.profiles = s.profiles
  entries  : t.entries = s.entries
  ticket   : ∀ i, t.ticket i = s.ticket i
  names    : ∀ i j', t.job i = some j' → ∃ j, s.job i = some j ∧ j'.profile = j.profile
  port     : ∀ p, t.port p = { s.port p with
    txn := (t.port p).txn, request := (t.port p).request, response := (t.port p).response
    notices := (t.port p).notices, attn := (t.port p).attn }

theorem Job.atFrameStart_profile (j : Job) : j.atFrameStart.profile = j.profile := by
  unfold Job.atFrameStart
  split <;> rfl

theorem Job.deferRelease_profile (j : Job) : j.deferRelease.profile = j.profile := by
  unfold Job.deferRelease
  split <;> rfl

namespace State.KeepsOwned

theorem refl (s : State) : s.KeepsOwned s where
  stn := rfl
  ms := rfl
  profiles := rfl
  entries := rfl
  ticket := fun _ => rfl
  names := fun _ j h => ⟨j, h, rfl⟩
  port := fun _ => rfl

theorem trans {s t u : State} (h : s.KeepsOwned t) (h' : t.KeepsOwned u) : s.KeepsOwned u where
  stn := h'.stn.trans h.stn
  ms := h'.ms.trans h.ms
  profiles := h'.profiles.trans h.profiles
  entries := h'.entries.trans h.entries
  ticket := fun i => (h'.ticket i).trans (h.ticket i)
  names := fun i j'' hj'' => by
    obtain ⟨j', hj', hp'⟩ := h'.names i j'' hj''
    obtain ⟨j, hj, hp⟩ := h.names i j' hj'
    exact ⟨j, hj, hp'.trans hp⟩
  port := fun p => by rw [h'.port, h.port]

/-- A change that touches no job and of the ports only what is left open. -/
theorem of_rest {s t : State}
    (rest : t = { s with
      tickCount := t.tickCount, la := t.la, tx := t.tx, rx := t.rx, seqs := t.seqs, mem := t.mem, rings := t.rings
      ports := t.ports, pending := t.pending })
    (port : ∀ p, t.port p = { s.port p with
      txn := (t.port p).txn, request := (t.port p).request, response := (t.port p).response
      notices := (t.port p).notices, attn := (t.port p).attn }) : s.KeepsOwned t where
  stn := by rw [rest]
  ms := by rw [rest]
  profiles := by rw [rest]
  entries := by rw [rest]
  ticket := fun i => by rw [rest]; rfl
  names := fun i j h => ⟨j, by rw [rest] at h; exact h, rfl⟩
  port := port

/-- A change of the blocks that own none of the pieces. -/
theorem blocks (s : State) (la : Arbiter) (tx : Transmitter) (rx : Receiver) (seqs : Vector (BitVec 16) 4)
    (mem : List Host.Cell) (rings : Vector (Option Ring) 4) :
    s.KeepsOwned { s with la := la, tx := tx, rx := rx, seqs := seqs, mem := mem, rings := rings } :=
  of_rest rfl fun _ => rfl

theorem la (s : State) (a : Arbiter) : s.KeepsOwned { s with la := a } := blocks s a _ _ _ _ _

/-! ### Jobs and the arbiter -/

theorem modifyJob (s : State) (i : SlotId) (f : Job → Job) (hf : ∀ j, (f j).profile = j.profile := by intro _; rfl) :
    s.KeepsOwned (s.modifyJob i f) where
  stn := rfl
  ms := rfl
  profiles := rfl
  entries := rfl
  ticket := fun k => by simp
  names := fun k j' h => by
    rw [State.modifyJob_job] at h
    split at h
    · subst k
      obtain ⟨j, hj, rfl⟩ := Option.map_eq_some_iff.1 h
      exact ⟨j, hj, hf j⟩
    · exact ⟨j', h, rfl⟩
  port := fun _ => rfl

theorem freeSlot (s : State) (i : SlotId) : s.KeepsOwned (s.freeSlot i) where
  stn := rfl
  ms := rfl
  profiles := rfl
  entries := rfl
  ticket := fun k => by simp
  names := fun k j' h => by
    rw [State.freeSlot_job] at h
    split at h
    · cases h
    · exact ⟨j', h, rfl⟩
  port := fun _ => rfl

theorem startGuard (s : State) (i : SlotId) : s.KeepsOwned (s.startGuard i) := la s _

theorem vacate (s : State) (i : SlotId) : s.KeepsOwned (s.vacate i) := la s _

theorem dropJob (s : State) (i : SlotId) : s.KeepsOwned (s.dropJob i) := (vacate s i).trans (freeSlot _ i)

theorem select (s : State) : s.KeepsOwned s.select := by
  unfold State.select
  split
  · exact (la s _).trans ((modifyJob _ _ _).trans (startGuard _ _))
  · exact refl s

theorem selectIfEmpty (s : State) : s.KeepsOwned s.selectIfEmpty := by
  unfold State.selectIfEmpty
  split
  · exact select s
  · exact refl s

theorem displace (s : State) (i : SlotId) (o : Origin) : s.KeepsOwned (s.displace i o) := by
  cases o <;> exact (la s _).trans (modifyJob _ i _)

theorem preempt (s : State) (i : SlotId) : s.KeepsOwned (s.preempt i) :=
  (la s _).trans ((modifyJob _ i _).trans (select _))

theorem reactToJoin (s : State) (c : Class) : s.KeepsOwned (s.reactToJoin c) := by
  unfold State.reactToJoin
  split
  · exact select s
  · split
    · exact (displace s _ _).trans (select _)
    · exact refl s
  · split
    · exact preempt s _
    · exact refl s

theorem joinTail (s : State) (i : SlotId) : s.KeepsOwned (s.joinTail i) :=
  (la s _).trans ((modifyJob _ i _).trans (reactToJoin _ _))

theorem joinHead (s : State) (i : SlotId) : s.KeepsOwned (s.joinHead i) :=
  (la s _).trans ((modifyJob _ i _).trans (reactToJoin _ _))

theorem enterGap (s : State) (i : SlotId) : s.KeepsOwned (s.enterGap i) := by
  refine (modifyJob s i (fun j => { j with state := .gap })).trans ?_
  unfold State.enterGap
  dsimp only
  split
  · exact preempt _ i
  · exact startGuard _ i

theorem enterBackoff (s : State) (i : SlotId) : s.KeepsOwned (s.enterBackoff i) :=
  (la s _).trans ((modifyJob _ i _).trans (select _))

/-! ### Ends, frame ends and frame starts -/

theorem notify (s : State) (i : SlotId) (o : JobOutcome) : s.KeepsOwned (s.notify i o) := by
  obtain ⟨rest, port⟩ := s.notify_rest i o
  refine of_rest (by rw [rest]) fun p => ?_
  rw [port]

theorem endSilently (s : State) (i : SlotId) : s.KeepsOwned (s.endSilently i) := by
  unfold State.endSilently
  split
  · exact (dropJob s i).trans (select _)
  · exact dropJob s i

theorem endJob (s : State) (i : SlotId) (o : JobOutcome) : s.KeepsOwned (s.endJob i o) :=
  (notify s i o).trans (endSilently _ i)

theorem stopDrive (s : State) : s.KeepsOwned s.stopDrive := of_rest rfl fun _ => rfl

theorem receives {s t : State} (h : s.OnlyReceives t) : s.KeepsOwned t := by
  refine of_rest (by rw [h.rest]) fun p => ?_
  rw [h.port]

theorem deliver (s : State) (e : Event) : s.KeepsOwned (s.deliver e) := receives (.deliver s e)

theorem frameStart (s : State) (i : SlotId) : s.KeepsOwned (s.frameStart i) := by
  unfold State.frameStart
  split
  · exact (modifyJob s i _ Job.atFrameStart_profile).trans (blocks _ _ _ _ _ _ _)
  · exact refl s

theorem frameEnd (s : State) (i : SlotId) (form : Form) : s.KeepsOwned (s.frameEnd i form) := by
  unfold State.frameEnd
  split
  · exact refl s
  · rename_i j _
    have delivered : s.KeepsOwned (if form = .full then s.deliver j.localEvent else s) := by
      split
      · exact deliver s _
      · exact refl s
    refine delivered.trans ?_
    generalize (if form = .full then s.deliver j.localEvent else s) = s'
    dsimp only
    split
    · exact endSilently s' i
    · refine (modifyJob s' i Job.countSent).trans ?_
      split
      · exact endJob _ i _
      · exact enterGap _ i

theorem collided (s : State) (i : SlotId) : s.KeepsOwned (s.collided i) := by
  unfold State.collided
  split
  · exact refl s
  · split
    · exact endSilently s i
    · refine (modifyJob s i Job.countCollision).trans ?_
      dsimp only
      split
      · exact endJob _ i _
      · exact enterBackoff _ i

/-! ### Ports, rings and the listening set -/

theorem modifyPort (s : State) (p : Port) (f : HostPort → HostPort)
    (hf : ∀ h, f h = { h with
      txn := (f h).txn, request := (f h).request, response := (f h).response, notices := (f h).notices
      attn := (f h).attn } := by intro _; rfl) : s.KeepsOwned (s.modifyPort p f) := by
  refine of_rest rfl fun k => ?_
  rw [State.modifyPort_port]
  split
  · subst k; exact hf _
  · rfl

theorem attend (s : State) (p : Port) : s.KeepsOwned (s.attend p) := modifyPort s p _

theorem replaceRing (s : State) (p : Port) (r : Option Ring) : s.KeepsOwned (s.replaceRing p r) :=
  trans (blocks _ _ _ _ _ _ _) (attend _ p)

theorem reevaluateListening (s : State) : s.KeepsOwned s.reevaluateListening := receives (.reevaluateListening s)

theorem closeJob (p : Port) (cut : Bool) (s : State) (i : SlotId) : s.KeepsOwned (s.closeJob p cut i) := by
  unfold State.closeJob
  split
  · exact refl s
  · split
    · split
      · split
        · exact (stopDrive s).trans (dropJob _ i)
        · exact modifyJob s i _
      · exact dropJob s i
    · exact refl s

theorem closeSlots (s : State) (p : Port) (cut : Bool) (slots : List SlotId) :
    s.KeepsOwned (slots.foldl (State.closeJob p cut) s) := by
  induction slots generalizing s with
  | nil => exact refl s
  | cons i slots ih => exact (closeJob p cut s i).trans (ih _)

theorem closeJobs (s : State) (p : Port) (cut : Bool) : s.KeepsOwned (s.closeJobs p cut) :=
  (closeSlots s p cut allSlots).trans (selectIfEmpty _)

end State.KeepsOwned

/-! ### The change of its own -/

/-- u is s after the change that command c alone makes to the pieces of `State.KeepsOwned`; every command can also leave
them all as they are. -/
inductive State.OwnChange (s : State) : Instr → State → Prop
  | nothing (c : Instr) : s.OwnChange c s
  | ms : s.OwnChange .millisecondTick { s with ms := s.ms + 1 }
  | profile (p : Port) (q : ProfileId) (x : Option Profile) (unused : s.inUse q = false) :
      s.OwnChange (.profileSet p) (s.setProfile q x)
  | fill (p : Port) (i : SlotId) (x : Submission) (epoch : Byte) (pr : Profile) (tag : Byte)
      (defined : s.profile x.profile = some pr) : s.OwnChange (.submit p) (s.fillSlot i (x.job p epoch pr tag))
  | merge (p : Port) (i : SlotId) (x : Submission) (pr : Profile) (tag : Byte)
      (defined : s.profile x.profile = some pr) : s.OwnChange (.submit p) (s.modifyJob i fun j => j.merge x pr tag)
  | subscribe (p : Port) (e : EntryId) (x : Entry) (defined : (s.profile x.profile).isSome = true) :
      s.OwnChange (.subscribe p) (s.setEntry e (some x))
  | unsubscribe (p : Port) (e : EntryId) : s.OwnChange (.unsubscribe p) (s.setEntry e none)
  | enable (p : Port) (e : EntryId) (x : Entry) (on : Bool)
      (defined : on = true → (s.profile x.profile).isSome = true) :
      s.OwnChange (.subEnable p) (s.setEntry e (some { x with enabled := on }))
  | openSession (p : Port) : s.OwnChange (.openSession p) (s.modifyPort p HostPort.opened)
  | closeSession (p : Port) : s.OwnChange (.closeSession p)
      (State.modifyPort { s with entries := s.entries.map fun x => x.filter fun e => e.owner != p } p HostPort.closed)
  | threshold (p : Port) (n : Nat) : s.OwnChange (.setAttn p) (s.modifyPort p fun h => { h with threshold := n })
  | select (p : Port) : s.OwnChange (.select p) (s.modifyPort p HostPort.select)
  | deselect (p : Port) : s.OwnChange (.deselect p) (s.modifyPort p HostPort.deselect)
  | clockEdge (p : Port) (edge : Edge) : s.OwnChange (.serialClockEdge p edge) (s.modifyPort p (·.clockEdge edge))

/-- t comes from s by a change that is c's own and by one that keeps the owned pieces. -/
def State.Does (c : Instr) (s t : State) : Prop := ∃ u, s.OwnChange c u ∧ u.KeepsOwned t

theorem State.KeepsOwned.does {s t : State} (c : Instr) (h : s.KeepsOwned t) : s.Does c t := ⟨s, .nothing c, h⟩

theorem State.OwnChange.does {s u : State} {c : Instr} (h : s.OwnChange c u) : s.Does c u := ⟨u, h, .refl u⟩

theorem State.Does.trans {s t u : State} {c : Instr} (h : s.Does c t) (h' : t.KeepsOwned u) : s.Does c u := by
  obtain ⟨v, own, keeps⟩ := h
  exact ⟨v, own, keeps.trans h'⟩

/-! ### Requests -/

/-- R165: taking a request does what the block's handler does. -/
theorem State.takeRequest_does {c : Instr} {s t : State} {k : RequestKind} {p : Port} {h : Request → State → Reply}
    (handler : ∀ r, s.Does c (h r s).state) (ht : s.takeRequest k p h = .next t) : s.Does c t := by
  obtain none_pending | ⟨r, _, _, answered⟩ := s.takeRequest_cases k p h
  · rw [none_pending] at ht
    cases ht
    exact (State.KeepsOwned.refl s).does c
  · rw [answered] at ht
    cases ht
    exact (handler r).trans (.modifyPort _ p _)

section
variable (p : Port) (r : Request) (s : State)

theorem profileDefineReply_does (q : ProfileId) (define : Bool) (body : List Byte) :
    s.Does (.profileSet p) (profileDefineReply q define body s).state := by
  unfold profileDefineReply
  split
  · split
    · exact (State.KeepsOwned.refl s).does _
    · split
      · exact (State.KeepsOwned.refl s).does _
      · split
        · exact (State.KeepsOwned.refl s).does _
        · exact (State.OwnChange.profile p q _ (Bool.eq_false_iff.2 ‹_›)).does
  · split
    · exact (State.KeepsOwned.refl s).does _
    · exact (State.OwnChange.profile p q _ (Bool.eq_false_iff.2 ‹_›)).does

theorem profileSetReply_does : s.Does (.profileSet p) (profileSetReply r s).state := by
  unfold profileSetReply
  split
  · exact profileDefineReply_does p s _ _ _
  · exact (State.KeepsOwned.refl s).does _

theorem profileGetReply_state : (profileGetReply r s).state = s := by
  unfold profileGetReply
  split <;> rfl

theorem State.mergeInto_does (i : SlotId) (j : Job) (x : Submission) (pr : Profile) (tag : Byte)
    (defined : s.profile x.profile = some pr) : s.Does (.submit p) (s.mergeInto i j x pr tag) := by
  refine (State.OwnChange.merge p i x pr tag defined).does.trans ?_
  unfold State.mergeInto
  dsimp only
  split
  · split
    · exact .startGuard _ i
    · exact .refl _
  · exact .trans (.vacate _ i) (.joinTail _ i)

theorem submitReply_does : s.Does (.submit p) (submitReply p r s).state := by
  unfold submitReply
  split
  · exact (State.KeepsOwned.refl s).does _
  · split
    · exact (State.KeepsOwned.refl s).does _
    · rename_i pr defined
      split
      · unfold State.decideSubmit
        split
        · exact s.mergeInto_does p _ _ _ pr _ defined
        · split
          · exact (State.KeepsOwned.refl s).does _
          · split
            · exact (State.KeepsOwned.refl s).does _
            · exact (State.OwnChange.fill p _ _ _ pr _ defined).does.trans (.joinTail _ _)
      · exact (State.KeepsOwned.refl s).does _

/-- R42: a request with a handle keeps the owned pieces when its effect on the job it names does. -/
theorem State.withHandle_keeps {body : List Byte} {f : SlotId → Job → Reply} (hf : ∀ i j, s.KeepsOwned (f i j).state) :
    s.KeepsOwned (s.withHandle p body f).state := by
  unfold State.withHandle
  split
  · exact .refl s
  · split
    · exact hf _ _
    · exact .refl s

theorem keepReply_keeps : s.KeepsOwned (keepReply p r s).state := by
  refine s.withHandle_keeps p fun i j => ?_
  split
  · exact .refl s
  · split
    · exact .refl s
    · exact .modifyJob s i _

theorem releaseReply_keeps : s.KeepsOwned (releaseReply p r s).state := by
  refine s.withHandle_keeps p fun i j => ?_
  split
  · exact .refl s
  · split
    · exact .modifyJob s i _ Job.deferRelease_profile
    · split
      · exact .modifyJob s i _
      · exact .endJob s i _

theorem cancelReply_keeps : s.KeepsOwned (cancelReply p r s).state := by
  refine s.withHandle_keeps p fun i j => ?_
  split
  · exact .modifyJob s i _
  · exact .endJob s i _

theorem jobQueryReply_keeps : s.KeepsOwned (jobQueryReply p r s).state :=
  s.withHandle_keeps p fun _ _ => .refl s

theorem subscribeReply_does : s.Does (.subscribe p) (subscribeReply p r s).state := by
  unfold subscribeReply
  split
  · exact (State.KeepsOwned.refl s).does _
  · split
    · exact (State.KeepsOwned.refl s).does _
    · rename_i x _ defined
      split
      · exact (State.KeepsOwned.refl s).does _
      · have defined : (s.profile x.profile).isSome = true := Option.isSome_iff_ne_none.2 (by simpa using defined)
        exact (State.OwnChange.subscribe p _ x defined).does.trans (.reevaluateListening _)

/-- R130: a request that names an entry does what its effect on that entry does. -/
theorem State.withEntry_does {c : Instr} {body : List Byte} {f : EntryId → Entry → Reply}
    (hf : ∀ e x, s.Does c (f e x).state) : s.Does c (s.withEntry p body f).state := by
  unfold State.withEntry
  split
  · exact (State.KeepsOwned.refl s).does _
  · split
    · exact hf _ _
    · exact (State.KeepsOwned.refl s).does _

theorem unsubscribeReply_does : s.Does (.unsubscribe p) (unsubscribeReply p r s).state :=
  s.withEntry_does p fun e _ => (State.OwnChange.unsubscribe p e).does.trans (.reevaluateListening _)

theorem subEnableReply_does : s.Does (.subEnable p) (subEnableReply p r s).state := by
  refine s.withEntry_does p fun e x => ?_
  split
  · exact (State.KeepsOwned.refl s).does _
  · rename_i on _
    split
    · exact (State.KeepsOwned.refl s).does _
    · split
      · exact (State.KeepsOwned.refl s).does _
      · rename_i checked
        have defined : on = true → (s.profile x.profile).isSome = true := by
          intro h
          exact Option.isSome_iff_ne_none.2 (by simpa [h] using checked)
        exact (State.OwnChange.enable p e x on defined).does.trans (.reevaluateListening _)

theorem ringSetReply_keeps : s.KeepsOwned (ringSetReply p r s).state := by
  unfold ringSetReply
  split
  · exact .refl s
  · unfold State.placeRing
    repeat' split
    · exact .refl s
    · exact .refl s
    · exact .refl s
    · exact .replaceRing s p _

theorem ringReadReply_keeps : s.KeepsOwned (ringReadReply p r s).state := by
  unfold ringReadReply
  split
  · exact .refl s
  · unfold State.readRing
    split
    · exact .refl s
    · exact .trans (.blocks _ _ _ _ _ _ _) (.attend _ p)

theorem openReply_does : s.Does (.openSession p) (openReply p r s).state := by
  unfold openReply
  split
  · exact (State.KeepsOwned.refl s).does _
  · exact (State.OwnChange.openSession p).does.trans (.trans (.blocks _ _ _ _ _ _ _) (.attend _ p))

theorem setAttnReply_does : s.Does (.setAttn p) (setAttnReply p r s).state := by
  unfold setAttnReply
  split
  · exact (State.KeepsOwned.refl s).does _
  · exact (State.OwnChange.threshold p _).does.trans (.attend _ p)

theorem noticeFetchReply_keeps : s.KeepsOwned (noticeFetchReply p r s).state := by
  unfold noticeFetchReply
  split
  · exact .refl s
  · exact .trans (.modifyPort s p _) (.attend _ p)

end

/-! ### Closing -/

/-- R142: freeing the entries of a port does not depend on what else has been kept or changed. -/
theorem State.KeepsOwned.freeEntries {s t : State} (p : Port) (h : s.KeepsOwned t) :
    State.KeepsOwned { s with entries := s.entries.map fun x => x.filter fun e => e.owner != p } (t.freeEntries p) :=
  trans (t := { t with entries := t.entries.map fun x => x.filter fun e => e.owner != p })
    { h with entries := by rw [h.entries] } (reevaluateListening _)

/-- A port's record takes a change of its own after what has been kept. -/
theorem State.KeepsOwned.modifyPort_both {s t : State} (p : Port) (f : HostPort → HostPort)
    (h : s.KeepsOwned t) (hf : ∀ x, f { x with
        txn := (t.port p).txn, request := (t.port p).request, response := (t.port p).response
        notices := (t.port p).notices, attn := (t.port p).attn } = { f x with
        txn := (f (t.port p)).txn, request := (f (t.port p)).request, response := (f (t.port p)).response
        notices := (f (t.port p)).notices, attn := (f (t.port p)).attn }) :
    (s.modifyPort p f).KeepsOwned (t.modifyPort p f) :=
  { h with
    port := fun k => by
      by_cases hk : k = p
      · subst k
        simp only [State.modifyPort_port_self]
        conv_lhs => rw [h.port p]
        exact hf _
      · simp only [State.modifyPort_port_ne _ _ _ _ hk]
        exact h.port k }

theorem closeReply_does (p : Port) (r : Request) (s : State) : s.Does (.closeSession p) (closeReply p r s).state := by
  unfold closeReply
  split
  · exact (State.KeepsOwned.refl s).does _
  · rename_i cut _
    refine ⟨_, .closeSession p, ?_⟩
    have before : State.KeepsOwned { s with entries := s.entries.map fun x => x.filter fun e => e.owner != p }
        (((s.closeJobs p cut).freeEntries p).replaceRing p none) :=
      ((State.KeepsOwned.closeJobs s p cut).freeEntries p).trans (.replaceRing _ p none)
    exact (before.modifyPort_both p HostPort.closed fun _ => rfl).trans (.attend _ p)

/-! ### Every command -/

section
variable {s t : State}

theorem State.lowerTimers_job (s : State) (i : SlotId) : s.lowerTimers.job i = (s.job i).map Job.lowerTimers := by
  simp [State.job, State.lowerTimers]

theorem State.lowerTimers_ticket (s : State) (i : SlotId) : s.lowerTimers.ticket i = s.ticket i := by
  simp [State.ticket, State.lowerTimers]

theorem State.KeepsOwned.lowerTimers (s : State) : s.KeepsOwned s.lowerTimers where
  stn := rfl
  ms := rfl
  profiles := rfl
  entries := rfl
  ticket := s.lowerTimers_ticket
  names := fun i j' hj' => by
    rw [State.lowerTimers_job] at hj'
    obtain ⟨j, hj, rfl⟩ := Option.map_eq_some_iff.1 hj'
    exact ⟨j, hj, rfl⟩
  port := fun _ => rfl

/-- The clock moves after what has been kept. -/
theorem State.KeepsOwned.clock (h : s.KeepsOwned t) (n : Nat) (ms : BitVec 32) :
    State.KeepsOwned { s with ms := ms } { t with tickCount := n, ms := ms } := { h with ms := rfl }

/-- R2, R3: the thousandth line tick is done. -/
theorem execMillisecondTick_due (h : 1000 ≤ s.tickCount) :
    execMillisecondTick s = .next { s.lowerTimers with tickCount := s.tickCount - 1000, ms := s.ms + 1 } := if_pos h

theorem execMillisecondTick_early (h : s.tickCount < 1000) : execMillisecondTick s = .next s :=
  if_neg (Nat.not_le.2 h)

theorem execMillisecondTick_does (h : execMillisecondTick s = .next t) : s.Does .millisecondTick t := by
  obtain early | due := Nat.lt_or_ge s.tickCount 1000
  · rw [execMillisecondTick_early early] at h
    cases h
    exact (State.KeepsOwned.refl _).does _
  · rw [execMillisecondTick_due due] at h
    have made := Host.Outcome.next.inj h
    subst made
    exact ⟨_, .ms, (State.KeepsOwned.lowerTimers s).clock _ _⟩

theorem execLineTick_keeps (h : execLineTick s = .next t) : s.KeepsOwned t := by
  cases h
  exact .of_rest rfl fun _ => rfl

theorem execDetectMark_keeps (h : execDetectMark s = .next t) : s.KeepsOwned t := by
  unfold execDetectMark at h
  split at h <;> cases h
  · exact .refl _
  · exact .trans (t := s.turnToMark) (.blocks s _ _ _ _ _ _) (.receives (.judgeAtMark _ _))

theorem execDetectSpace_keeps (h : execDetectSpace s = .next t) : s.KeepsOwned t := by
  unfold execDetectSpace at h
  split at h <;> cases h
  · exact .refl _
  · exact .trans (t := s.turnToSpace) (.blocks s _ _ _ _ _ _) (.receives (.judgeAtSpace _ _))

theorem State.OnlyReceives.markTooLong (s : State) : s.OnlyReceives (s.markTooLong.getD s) := by
  unfold State.markTooLong
  split
  · split
    · exact .noise s
    · exact .refl s
  · split
    · split
      · exact .failDecode s _ _ _
      · exact .refl s
    · exact .refl s
  all_goals exact .refl s

theorem execMarkTooLong_keeps (h : execMarkTooLong s = .next t) : s.KeepsOwned t := by
  unfold execMarkTooLong at h
  split at h <;> cases h
  · exact .receives (.markTooLong s)
  · exact .refl _

theorem execLeaderSpaceTooLong_keeps (h : execLeaderSpaceTooLong s = .next t) : s.KeepsOwned t := by
  unfold execLeaderSpaceTooLong at h
  split at h
  · split at h <;> cases h
    · exact .receives (.noise s)
    · exact .refl _
  · cases h
    exact .refl _

theorem execEndGapReached_keeps (h : execEndGapReached s = .next t) : s.KeepsOwned t := by
  unfold execEndGapReached at h
  split at h
  · split at h
    · split at h <;> cases h
      · exact .receives (.closeDecode s _ _)
      · exact .refl _
    · cases h
      exact .refl _
  · cases h
    exact .refl _

theorem execClosingGapReached_keeps (h : execClosingGapReached s = .next t) : s.KeepsOwned t := by
  unfold execClosingGapReached at h
  split at h
  · split at h <;> cases h
    · exact .receives (.rx s _)
    · exact .refl _
  · cases h
    exact .refl _

theorem execHoldWindowExpiry_keeps (h : execHoldWindowExpiry s = .next t) : s.KeepsOwned t := by
  unfold execHoldWindowExpiry at h
  split at h
  · split at h <;> cases h
    · exact .receives (.endHold s _)
    · exact .refl _
  · cases h
    exact .refl _

theorem execGuardComplete_keeps (h : execGuardComplete s = .next t) : s.KeepsOwned t := by
  unfold execGuardComplete at h
  split at h
  · split at h
    · cases h
      exact .frameStart s _
    · split at h <;> cases h
      · exact .frameStart s _
      · exact .refl _
    · cases h
      exact .refl _
  · cases h
    exact .refl _

theorem execRepeatPeriodExpiry_keeps (h : execRepeatPeriodExpiry s = .next t) : s.KeepsOwned t := by
  have period : s.KeepsOwned s.endPeriod := .la s _
  unfold execRepeatPeriodExpiry at h
  split at h
  · split at h
    · split at h <;> cases h
      · exact period.trans (.frameStart _ _)
      · exact period
    all_goals
      cases h
      exact .refl _
  · cases h
    exact .refl _

theorem execDriveDone_keeps (h : execDriveDone s = .next t) : s.KeepsOwned t := by
  unfold execDriveDone at h
  split at h
  · split at h <;> cases h
    · exact (State.KeepsOwned.stopDrive s).trans (.frameEnd _ _ _)
    · exact .refl _
  · cases h
    exact .refl _

theorem execCollision_keeps (h : execCollision s = .next t) : s.KeepsOwned t := by
  unfold execCollision at h
  split at h
  · split at h <;> cases h
    · exact (State.KeepsOwned.stopDrive s).trans (.collided _ _)
    · exact .refl _
  · cases h
    exact .refl _

theorem execBackoffExpiry_keeps {i : SlotId} (h : execBackoffExpiry i s = .next t) : s.KeepsOwned t := by
  unfold execBackoffExpiry at h
  split at h <;> cases h
  · exact (State.KeepsOwned.vacate s i).trans (.trans (.modifyJob _ i _) (.joinHead _ i))
  · exact .refl _

theorem execDeadlineExpiry_keeps {i : SlotId} (h : execDeadlineExpiry i s = .next t) : s.KeepsOwned t := by
  unfold execDeadlineExpiry at h
  split at h <;> cases h
  · exact .endJob s i _
  · exact .refl _

theorem execLeaseExpiry_keeps {i : SlotId} (h : execLeaseExpiry i s = .next t) : s.KeepsOwned t := by
  unfold execLeaseExpiry at h
  split at h
  · split at h <;> cases h
    · exact .modifyJob s i _
    · exact .endJob s i _
  · cases h
    exact .refl _

theorem execSelect_does {p : Port} (h : execSelect p s = .next t) : s.Does (.select p) t := by
  unfold execSelect at h
  split at h <;> cases h
  · exact (State.KeepsOwned.refl _).does _
  · exact (State.OwnChange.select p).does

theorem execDeselect_does {p : Port} (h : execDeselect p s = .next t) : s.Does (.deselect p) t := by
  unfold execDeselect at h
  split at h <;> cases h
  · exact (State.OwnChange.deselect p).does
  · exact (State.KeepsOwned.refl _).does _

theorem execSerialClockEdge_does {p : Port} {edge : Edge} (h : execSerialClockEdge p edge s = .next t) :
    s.Does (.serialClockEdge p edge) t := by
  cases h
  exact (State.OwnChange.clockEdge p edge).does

end

/-- What every command but FULL_RESET does: a change of its own, and one that keeps the owned pieces. -/
theorem exec_does {c : Instr} {s t : State} (h : exec c s = .next t) (hc : ∀ straps, c ≠ .fullReset straps) :
    s.Does c t := by
  cases c with
  | fullReset straps => exact absurd rfl (hc straps)
  | lineTick => exact (execLineTick_keeps h).does _
  | millisecondTick => exact execMillisecondTick_does h
  | detectMark => exact (execDetectMark_keeps h).does _
  | detectSpace => exact (execDetectSpace_keeps h).does _
  | markTooLong => exact (execMarkTooLong_keeps h).does _
  | leaderSpaceTooLong => exact (execLeaderSpaceTooLong_keeps h).does _
  | endGapReached => exact (execEndGapReached_keeps h).does _
  | closingGapReached => exact (execClosingGapReached_keeps h).does _
  | holdWindowExpiry => exact (execHoldWindowExpiry_keeps h).does _
  | guardComplete => exact (execGuardComplete_keeps h).does _
  | repeatPeriodExpiry => exact (execRepeatPeriodExpiry_keeps h).does _
  | driveDone => exact (execDriveDone_keeps h).does _
  | collision => exact (execCollision_keeps h).does _
  | backoffExpiry i => exact (execBackoffExpiry_keeps h).does _
  | deadlineExpiry i => exact (execDeadlineExpiry_keeps h).does _
  | leaseExpiry i => exact (execLeaseExpiry_keeps h).does _
  | select p => exact execSelect_does h
  | deselect p => exact execDeselect_does h
  | serialClockEdge p edge => exact execSerialClockEdge_does h
  | hello p => exact State.takeRequest_does (fun _ => (State.KeepsOwned.refl s).does _) h
  | openSession p => exact State.takeRequest_does (fun r => openReply_does p r s) h
  | closeSession p => exact State.takeRequest_does (fun r => closeReply_does p r s) h
  | setAttn p => exact State.takeRequest_does (fun r => setAttnReply_does p r s) h
  | noticeFetch p => exact State.takeRequest_does (fun r => (noticeFetchReply_keeps p r s).does _) h
  | lineQuery p => exact State.takeRequest_does (fun _ => (State.KeepsOwned.refl s).does _) h
  | profileSet p => exact State.takeRequest_does (fun r => profileSetReply_does p r s) h
  | profileGet p =>
    exact State.takeRequest_does (fun r => by rw [profileGetReply_state]; exact (State.KeepsOwned.refl s).does _) h
  | submit p => exact State.takeRequest_does (fun r => submitReply_does p r s) h
  | keep p => exact State.takeRequest_does (fun r => (keepReply_keeps p r s).does _) h
  | release p => exact State.takeRequest_does (fun r => (releaseReply_keeps p r s).does _) h
  | cancel p => exact State.takeRequest_does (fun r => (cancelReply_keeps p r s).does _) h
  | jobQuery p => exact State.takeRequest_does (fun r => (jobQueryReply_keeps p r s).does _) h
  | subscribe p => exact State.takeRequest_does (fun r => subscribeReply_does p r s) h
  | unsubscribe p => exact State.takeRequest_does (fun r => unsubscribeReply_does p r s) h
  | subEnable p => exact State.takeRequest_does (fun r => subEnableReply_does p r s) h
  | subList p => exact State.takeRequest_does (fun _ => (State.KeepsOwned.refl s).does _) h
  | ringSet p => exact State.takeRequest_does (fun r => (ringSetReply_keeps p r s).does _) h
  | ringRead p => exact State.takeRequest_does (fun r => (ringReadReply_keeps p r s).does _) h
  | ringQuery p => exact State.takeRequest_does (fun _ => (State.KeepsOwned.refl s).does _) h

end Sys2Proof.Machine
end

section
/-! PROOFS. Who uses a profile, and the law that a profile in use stays defined (R16):
it follows from what a command does (`exec_does`). -/

-- The proofs run one after another, for the memory limit of the check.
set_option Elab.async false

namespace Sys2Proof.Machine

/-! ### The users of a profile -/

theorem State.jobSatisfies_eq_true {s : State} {test : Job → Bool} {i : SlotId} :
    s.jobSatisfies test i = true ↔ ∃ j, s.job i = some j ∧ test j = true := Option.any_eq_true _ _

theorem State.entrySatisfies_eq_true {s : State} {test : Entry → Bool} {e : EntryId} :
    s.entrySatisfies test e = true ↔ ∃ x, s.entry e = some x ∧ test x = true := Option.any_eq_true _ _

/-- R17: a job uses the profile. -/
theorem State.jobsUsing_pos {s : State} {q : ProfileId} :
    0 < s.jobsUsing q ↔ ∃ i j, s.job i = some j ∧ j.profile = q := by
  simp [State.jobsUsing, State.countJobs, allSlots, State.jobSatisfies_eq_true]

/-- R17: an enabled entry uses the profile. -/
theorem State.subsUsing_pos {s : State} {q : ProfileId} :
    0 < s.subsUsing q ↔ ∃ e x, s.entry e = some x ∧ x.enabled = true ∧ x.profile = q := by
  simp [State.subsUsing, allEntries, State.entrySatisfies_eq_true]

/-- R16: a profile is in use where a job or an enabled entry names it. -/
theorem State.inUse_iff {s : State} {q : ProfileId} :
    s.inUse q = true ↔ (∃ i j, s.job i = some j ∧ j.profile = q) ∨
      ∃ e x, s.entry e = some x ∧ x.enabled = true ∧ x.profile = q := by
  rw [← State.jobsUsing_pos, ← State.subsUsing_pos, State.inUse, decide_eq_true_eq, Nat.add_pos_iff_pos_or_pos]

/-! ### A profile in use stays defined -/

theorem State.referencesLawful_of_keepsOwned {s t : State} (h : s.KeepsOwned t) (hs : s.referencesLawful) :
    t.referencesLawful := by
  obtain ⟨jobs, entries⟩ := hs
  refine ⟨fun i j' hj' => ?_, fun e x hx on => ?_⟩
  · obtain ⟨j, hj, same⟩ := h.names i j' hj'
    rw [State.profile, h.profiles, same]
    exact jobs i j hj
  · rw [State.entry, h.entries] at hx
    rw [State.profile, h.profiles]
    exact entries e x hx on

/-- R15, R16: a profile that nothing names may be replaced or left undefined. -/
theorem State.referencesLawful_setProfile {s : State} {q : ProfileId} (x : Option Profile) (unused : s.inUse q = false)
    (hs : s.referencesLawful) : (s.setProfile q x).referencesLawful := by
  obtain ⟨jobs, entries⟩ := hs
  have unused : ¬s.inUse q = true := by simp [unused]
  rw [State.inUse_iff, not_or] at unused
  obtain ⟨no_job, no_entry⟩ := unused
  refine ⟨fun i j hj => ?_, fun e y hy on => ?_⟩
  · rw [State.setProfile_profile_ne _ _ _ _ fun h => no_job ⟨i, j, hj, h⟩]
    exact jobs i j hj
  · rw [State.setProfile_profile_ne _ _ _ _ fun h => no_entry ⟨e, y, hy, on, h⟩]
    exact entries e y hy on

/-- R27: a job may take the place of another, or of none, when it names a defined profile. -/
theorem State.referencesLawful_of_job {s t : State} {i : SlotId} (profiles : t.profiles = s.profiles)
    (entries : t.entries = s.entries) (others : ∀ k, k ≠ i → t.job k = s.job k)
    (named : ∀ j, t.job i = some j → (s.profile j.profile).isSome = true) (hs : s.referencesLawful) :
    t.referencesLawful := by
  refine ⟨fun k j hj => ?_, fun e x hx on => ?_⟩
  · rw [State.profile, profiles]
    by_cases hk : k = i
    · subst k
      exact named j hj
    · exact hs.1 k j ((others k hk).symm.trans hj)
  · rw [State.entry, entries] at hx
    rw [State.profile, profiles]
    exact hs.2 e x hx on

/-- R128, R132: an entry may take the place of another, or of none, when it is disabled or names a defined profile. -/
theorem State.referencesLawful_setEntry {s : State} {e : EntryId} {x : Option Entry}
    (named : ∀ y, x = some y → y.enabled = true → (s.profile y.profile).isSome = true) (hs : s.referencesLawful) :
    (s.setEntry e x).referencesLawful := by
  refine ⟨hs.1, fun k y hy on => ?_⟩
  by_cases hk : k = e
  · subst k
    rw [State.setEntry_entry_self] at hy
    exact named y hy on
  · rw [State.setEntry_entry_ne _ _ _ _ hk] at hy
    exact hs.2 k y hy on

/-- R142: entries may go. -/
theorem State.referencesLawful_filterEntries {s : State} (keep : Entry → Bool) (hs : s.referencesLawful) :
    State.referencesLawful { s with entries := s.entries.map fun x => x.filter keep } := by
  refine ⟨hs.1, fun e y hy on => ?_⟩
  have hy : (s.entry e).filter keep = some y := by simpa [State.entry] using hy
  exact hs.2 e y (Option.filter_eq_some_iff.1 hy).1 on

/-- R16: no command's own change leaves a profile in use undefined. -/
theorem State.OwnChange.referencesLawful {c : Instr} {s u : State} (h : s.OwnChange c u) (hs : s.referencesLawful) :
    u.referencesLawful := by
  cases h with
  | nothing => exact hs
  | ms => exact hs
  | profile p q x unused => exact State.referencesLawful_setProfile x unused hs
  | fill p i x epoch pr tag defined =>
    refine State.referencesLawful_of_job (s := s) rfl rfl (fun k hk => s.fillSlot_job_ne i k _ hk) (fun j hj => ?_) hs
    rw [State.fillSlot_job_self] at hj
    cases hj
    exact Option.isSome_of_eq_some defined
  | merge p i x pr tag defined =>
    refine State.referencesLawful_of_job (s := s) rfl rfl (fun k hk => s.modifyJob_job_ne i k _ hk) (fun j hj => ?_) hs
    rw [State.modifyJob_job_self] at hj
    obtain ⟨j, _, rfl⟩ := Option.map_eq_some_iff.1 hj
    exact Option.isSome_of_eq_some defined
  | subscribe p e x defined =>
    exact State.referencesLawful_setEntry (fun y hy _ => by cases hy; exact defined) hs
  | unsubscribe p e => exact State.referencesLawful_setEntry (fun y hy => by cases hy) hs
  | enable p e x on defined =>
    exact State.referencesLawful_setEntry (fun y hy => by cases hy; exact defined) hs
  | closeSession p => exact State.referencesLawful_filterEntries _ hs
  | openSession | threshold | select | deselect | clockEdge => exact hs

theorem State.referencesLawful_reset (straps : BitVec 4) (s : State) :
    State.referencesLawful
      { State.reset with stn := straps, ports := s.ports.map HostPort.fullReset, pending := s.pending } := by
  refine ⟨fun i j hj => ?_, fun e x hx => ?_⟩
  · simp [State.job, State.reset] at hj
  · simp [State.entry, State.reset] at hx

theorem exec_referencesLawful {c : Instr} {s t : State} (h : exec c s = .next t) (hs : s.referencesLawful) :
    t.referencesLawful := by
  by_cases full_reset : ∃ straps, c = .fullReset straps
  · obtain ⟨straps, rfl⟩ := full_reset
    cases h
    exact State.referencesLawful_reset straps s
  · obtain ⟨u, own, keeps⟩ := exec_does h fun straps hc => full_reset ⟨straps, hc⟩
    exact State.referencesLawful_of_keepsOwned keeps (own.referencesLawful hs)

/-- What a step leaves is what it found, or what the front command makes of it with the rest of the queue. -/
theorem step_cases {s t : State} (h : step s = .next t) :
    t = s ∨ ∃ c rest, s.pending = c :: rest ∧ exec c { s with pending := rest } = .next t := by
  unfold step at h
  split at h
  · cases h
    exact .inl rfl
  · exact .inr ⟨_, _, ‹_›, h⟩

end Sys2Proof.Machine

section
open Sys2Proof Sys2Proof.Machine

/-- Settles O56: every command makes a change of its own, which R14, R27 and R128 check against R16, and then keeps the
profiles, the names and the entries. -/
theorem referencedProfilesStayDefined : Obligations.ReferencedProfilesStayDefined := by
  intro s t hs h
  obtain rfl | ⟨c, rest, _, h⟩ := step_cases h
  · exact hs
  · exact exec_referencesLawful h hs

end
end

section
/-! PROOFS. The owned pieces of state change by their own commands alone: what each command's own change leaves. -/

-- The proofs run one after another, for the memory limit of the check.
set_option Elab.async false

namespace Sys2Proof.Machine

/-! ### The wires' own changes -/

/-- R159: the wires of a port leave its session, its epoch and its threshold. -/
def HostPort.KeepsSession (h h' : HostPort) : Prop :=
  h'.isOpen = h.isOpen ∧ h'.epoch = h.epoch ∧ h'.threshold = h.threshold

theorem HostPort.select_keepsSession (h : HostPort) : h.KeepsSession h.select := by
  unfold HostPort.select
  split <;> exact ⟨rfl, rfl, rfl⟩

theorem HostPort.settle_keepsSession (h : HostPort) : h.KeepsSession h.settle := by
  unfold HostPort.settle
  split <;> exact ⟨rfl, rfl, rfl⟩

theorem HostPort.deselect_keepsSession (h : HostPort) : h.KeepsSession h.deselect := by
  unfold HostPort.deselect
  split
  · exact ⟨rfl, rfl, rfl⟩
  · split
    · exact h.settle_keepsSession
    all_goals exact ⟨rfl, rfl, rfl⟩

theorem HostPort.takeBit_keepsSession (h : HostPort) (bit : Bool) : h.KeepsSession (h.takeBit bit) := by
  unfold HostPort.takeBit
  dsimp only
  repeat' split
  all_goals exact ⟨rfl, rfl, rfl⟩

theorem HostPort.presentNext_keepsSession (h : HostPort) : h.KeepsSession h.presentNext := by
  unfold HostPort.presentNext
  split <;> exact ⟨rfl, rfl, rfl⟩

theorem HostPort.clockEdge_keepsSession (h : HostPort) (edge : Edge) : h.KeepsSession (h.clockEdge edge) := by
  cases edge with
  | rising sdi =>
    simp only [HostPort.clockEdge]
    split
    · exact ⟨rfl, rfl, rfl⟩
    · exact HostPort.takeBit_keepsSession { h with clockHigh := true } sdi
  | falling =>
    simp only [HostPort.clockEdge]
    split
    · exact HostPort.presentNext_keepsSession { h with clockHigh := false }
    · exact ⟨rfl, rfl, rfl⟩

/-! ### What a command's own change does to each piece -/

section
variable {c : Instr} {s u : State}

/-- R159, R160, R171: a command's own change of a port is that of its OPEN, its CLOSE, its SET_ATTN or its wires. -/
theorem State.OwnChange.port (h : s.OwnChange c u) (p : Port) :
    u.port p = s.port p ∨ (c = .openSession p ∧ u.port p = (s.port p).opened) ∨
      (c = .closeSession p ∧ u.port p = (s.port p).closed) ∨
      (c = .setAttn p ∧ ∃ n, u.port p = { s.port p with threshold := n }) ∨
      ((c = .select p ∨ c = .deselect p ∨ ∃ e, c = .serialClockEdge p e) ∧ (s.port p).KeepsSession (u.port p)) := by
  have modified (v : State) (k : Port) (f : HostPort → HostPort) :
      (v.modifyPort k f).port p = v.port p ∨ p = k ∧ (v.modifyPort k f).port p = f (v.port p) := by
    rw [State.modifyPort_port]
    split
    · subst k; exact .inr ⟨rfl, rfl⟩
    · exact .inl rfl
  cases h with
  | nothing | ms | profile | fill | merge | subscribe | unsubscribe | enable => exact .inl rfl
  | openSession k =>
    obtain same | ⟨rfl, new⟩ := modified s k HostPort.opened
    · exact .inl same
    · exact .inr (.inl ⟨rfl, new⟩)
  | closeSession k =>
    obtain same | ⟨rfl, new⟩ := modified _ k HostPort.closed
    · exact .inl same
    · exact .inr (.inr (.inl ⟨rfl, new⟩))
  | threshold k n =>
    obtain same | ⟨rfl, new⟩ := modified s k fun h => { h with threshold := n }
    · exact .inl same
    · exact .inr (.inr (.inr (.inl ⟨rfl, n, new⟩)))
  | select k =>
    obtain same | ⟨rfl, new⟩ := modified s k HostPort.select
    · exact .inl same
    · exact .inr (.inr (.inr (.inr ⟨.inl rfl, new ▸ HostPort.select_keepsSession _⟩)))
  | deselect k =>
    obtain same | ⟨rfl, new⟩ := modified s k HostPort.deselect
    · exact .inl same
    · exact .inr (.inr (.inr (.inr ⟨.inr (.inl rfl), new ▸ HostPort.deselect_keepsSession _⟩)))
  | clockEdge k e =>
    obtain same | ⟨rfl, new⟩ := modified s k (·.clockEdge e)
    · exact .inl same
    · exact .inr (.inr (.inr (.inr ⟨.inr (.inr ⟨e, rfl⟩), new ▸ HostPort.clockEdge_keepsSession _ e⟩)))

/-- R4: no command's own change is of STN. -/
theorem State.OwnChange.stn (h : s.OwnChange c u) : u.stn = s.stn := by cases h <;> rfl

theorem State.OwnChange.ms_eq (h : s.OwnChange c u) (hc : c ≠ .millisecondTick) : u.ms = s.ms := by
  cases h with
  | ms => exact absurd rfl hc
  | _ => rfl

theorem State.OwnChange.profiles (h : s.OwnChange c u) (hc : ∀ p, c ≠ .profileSet p) : u.profiles = s.profiles := by
  cases h with
  | profile p => exact absurd rfl (hc p)
  | _ => rfl

theorem State.OwnChange.ticket (h : s.OwnChange c u) (hc : ∀ p, c ≠ .submit p) (i : SlotId) :
    u.ticket i = s.ticket i := by
  cases h with
  | fill p | merge p => exact absurd rfl (hc p)
  | _ => rfl

theorem State.OwnChange.entries (h : s.OwnChange c u)
    (hc : ∀ p, c ≠ .subscribe p ∧ c ≠ .unsubscribe p ∧ c ≠ .subEnable p ∧ c ≠ .closeSession p) :
    u.entries = s.entries := by
  cases h with
  | subscribe p => exact absurd rfl (hc p).1
  | unsubscribe p => exact absurd rfl (hc p).2.1
  | enable p => exact absurd rfl (hc p).2.2.1
  | closeSession p => exact absurd rfl (hc p).2.2.2
  | _ => rfl

/-- R159, R160, R171: the session of a port is left by every own change but that of its OPEN, CLOSE and SET_ATTN. -/
theorem State.OwnChange.session (h : s.OwnChange c u) (p : Port) :
    (c ≠ .openSession p → c ≠ .closeSession p → (u.port p).isOpen = (s.port p).isOpen) ∧
      (c ≠ .openSession p → (u.port p).epoch = (s.port p).epoch) ∧
      (c ≠ .openSession p → c ≠ .setAttn p → (u.port p).threshold = (s.port p).threshold) := by
  obtain same | ⟨rfl, _⟩ | ⟨rfl, closed⟩ | ⟨rfl, n, set⟩ | ⟨_, isOpen, epoch, threshold⟩ := h.port p
  · simp [same]
  · simp
  · simp [closed, HostPort.closed]
  · simp [set]
  · exact ⟨fun _ _ => isOpen, fun _ => epoch, fun _ _ => threshold⟩

/-- R159: the wires of a port have one state and another. -/
def HostPort.SameWires (h h' : HostPort) : Prop :=
  h'.selectLow = h.selectLow ∧ h'.clockHigh = h.clockHigh ∧ h'.sdo = h.sdo ∧ h'.refused = h.refused ∧
    h'.bitsIn = h.bitsIn ∧ h'.received = h.received ∧ h'.out = h.out ∧ h'.outBit = h.outBit

/-- R159: the wires of a port are left by every own change but theirs. -/
theorem State.OwnChange.wires (h : s.OwnChange c u) (p : Port) (hs : c ≠ .select p) (hd : c ≠ .deselect p)
    (he : ∀ e, c ≠ .serialClockEdge p e) : (s.port p).SameWires (u.port p) := by
  obtain same | ⟨_, opened⟩ | ⟨_, closed⟩ | ⟨_, n, set⟩ | ⟨rfl | rfl | ⟨e, rfl⟩, _⟩ := h.port p
  · rw [same]; exact ⟨rfl, rfl, rfl, rfl, rfl, rfl, rfl, rfl⟩
  · rw [opened]; exact ⟨rfl, rfl, rfl, rfl, rfl, rfl, rfl, rfl⟩
  · rw [closed]; exact ⟨rfl, rfl, rfl, rfl, rfl, rfl, rfl, rfl⟩
  · rw [set]; exact ⟨rfl, rfl, rfl, rfl, rfl, rfl, rfl, rfl⟩
  · exact absurd rfl hs
  · exact absurd rfl hd
  · exact absurd rfl (he e)

end

end Sys2Proof.Machine

section
open Sys2Proof Sys2Proof.Machine

/-- Settles O3: a command makes its own change, which touches the piece it owns alone, and keeps the rest. -/
theorem stateChangesByItsOwnCommands : Obligations.StateChangesByItsOwnCommands := by
  intro c s t h no_reset
  obtain ⟨u, own, keeps⟩ := exec_does h no_reset
  refine ⟨keeps.stn.trans own.stn, fun hc => keeps.ms.trans (own.ms_eq hc),
    fun hc => keeps.profiles.trans (own.profiles hc),
    fun hc i => (keeps.ticket i).trans (own.ticket hc i), fun hc => keeps.entries.trans (own.entries hc), fun p => ?_⟩
  rw [keeps.port p]
  obtain ⟨isOpen, epoch, threshold⟩ := own.session p
  exact ⟨isOpen, epoch, threshold, own.wires p⟩

end
end

section
/-! PROOFS. The line clock: what a line tick, a millisecond tick and a frame start leave, down to the levels on
DRIVE. -/

-- The proofs run one after another, for the memory limit of the check.
set_option Elab.async false

namespace Sys2Proof.Machine

/-! ### Bits and numbers -/

/-- Bit k of the number that a list of bits spells is the k-th of them. -/
theorem bitsNumber_testBit (bs : List Bool) (k : Nat) : (bitsNumber bs).testBit k = bs.getD k false := by
  induction bs generalizing k with
  | nil => simp [bitsNumber]
  | cons b bs ih =>
    cases k with
    | zero => cases b <;> simp [bitsNumber, Nat.testBit_zero]
    | succ k =>
      have half : (b.toNat + 2 * bitsNumber bs) / 2 = bitsNumber bs := by have := b.toNat_lt; omega
      rw [bitsNumber, Nat.testBit_succ, half, ih, List.getD_cons_succ]

theorem byte_getLsbD (n : Nat) {k : Nat} (hk : k < 8) : (byte n).getLsbD k = n.testBit k := by
  rw [byte, BitVec.getLsbD_ofNat, decide_eq_true hk, Bool.true_and]

/-! ### The levels on DRIVE -/

theorem Drive.markLevel_eq (d : Drive) (c : Nat) :
    d.markLevel c = (decide (d.carrierPeriod = 0) || decide (c % d.carrierPeriod < d.carrierOn)) := by
  unfold Drive.markLevel
  split <;> simp [*]

/-- R72: the level in each CLK period of the tick that the position names: the carrier of a mark, or a steady low. -/
theorem Drive.pinLevels_getLsbD {d : Drive} {g : Segment} (hg : d.segments[d.position]? = some g) {k : Nat}
    (hk : k < 8) : d.pinLevels.getLsbD k = (decide (g.level = .mark) && d.markLevel (8 * d.driven + k)) := by
  obtain ⟨level, ticks⟩ := g
  unfold Drive.pinLevels
  rw [hg]
  cases level with
  | space => simp
  | mark => rw [byte_getLsbD _ hk, bitsNumber_testBit]; simp [Config.clkPerTick, hk]

/-! ### The drive at a line tick -/

section
variable {d : Drive} {g : Segment} (hg : d.segments[d.position]? = some g)
include hg

theorem Drive.advance_within (h : d.driven + 1 < g.ticks) : d.advance = { d with driven := d.driven + 1 } := by
  simp only [Drive.advance, hg, h, if_true]

theorem Drive.advance_next (h : g.ticks ≤ d.driven + 1) :
    d.advance = { d with position := d.position + 1, driven := 0 } := by
  simp only [Drive.advance, hg, Nat.not_lt.2 h, if_false]

theorem Transmitter.tick_driving {tx : Transmitter} (detect : Level) (hd : tx.drive = some d) :
    tx.tick detect = {
      drive := some d.advance, disagree := if g.level = detect then 0 else tx.disagree + 1
      pin := if d.advance.finished then tx.pin else d.advance.pinLevels } := by
  simp only [Transmitter.tick, hd, Drive.intended, hg, Option.map_some]

end

/-- R19: what TX read from the profile stays as the drive moves on. -/
theorem Drive.advance_rest (d : Drive) :
    d.advance = { d with position := d.advance.position, driven := d.advance.driven } := by
  unfold Drive.advance
  split
  · split <;> rfl
  · rfl

theorem Drive.finished_eq_false {d : Drive} {g : Segment} (hg : d.segments[d.position]? = some g) :
    d.finished = false := by
  have := (List.getElem?_eq_some_iff.1 hg).1
  simpa [Drive.finished] using this

theorem Transmitter.tick_idle {tx : Transmitter} (detect : Level) (h : tx.drive = none) : tx.tick detect = tx := by
  simp only [Transmitter.tick, h]

/-! ### The receiver and the guard at a line tick -/

theorem Receiver.tick_eq (r : Receiver) :
    r.tick = if r.level = .space then { r with quiet := min (r.quiet + 1) 1000000 }
      else { r with quiet := 0, markTicks := r.markTicks + 1 } := by
  unfold Receiver.tick
  cases h : r.level <;> rfl

/-- R52: the guard's count advances up to its target, and a count beyond it stays. -/
theorem GuardCount.advance_eq (g : GuardCount) :
    g.advance = { g with count := if g.count < g.target then g.count + 1 else g.count } := by
  unfold GuardCount.advance
  congr 1
  split <;> omega

theorem Arbiter.tick_eq (a : Arbiter) (level : Level) :
    a.tick level = if level = .space then
        { a with guard := a.guard.map fun g =>
          { g with count := if g.count < g.target then g.count + 1 else g.count } }
      else a := by
  cases level with
  | space => simp only [Arbiter.tick, if_true, funext GuardCount.advance_eq]
  | mark => rfl

/-! ### Frame starts -/

/-- R70: joining keeps the level of the first piece. -/
theorem joinSegments_head (x : Segment) (xs : List Segment) :
    ∃ n rest, joinSegments (x :: xs) = ⟨x.level, n⟩ :: rest := by
  unfold joinSegments
  split
  · exact ⟨_, _, rfl⟩
  · split <;> exact ⟨_, _, rfl⟩

/-- R6, R11: every transmission begins with its leader mark. -/
theorem Profile.segments_head (pr : Profile) (form : Form) (address : Byte) (data : List Byte) :
    ∃ n rest, pr.segments form address data = ⟨.mark, n⟩ :: rest := by
  cases form with
  | full => exact joinSegments_head _ _
  | marker => exact ⟨_, _, rfl⟩

/-- R53, R57, R72, R109: a frame start of a job whose profile is defined. -/
theorem State.frameStart_eq {s : State} {i : SlotId} {j : Job} {pr : Profile} (hj : s.job i = some j)
    (hp : s.profile j.profile = some pr) : s.frameStart i = { s with
      jobs := (s.modifyJob i Job.atFrameStart).jobs
      la := { s.la with
        position := .holder i, guard := none, repeatTimer := some pr.repeatPeriodMs, periodDone := false }
      tx := { drive := some (j.buildDrive pr i), disagree := 0, pin := (j.buildDrive pr i).pinLevels }
      rx := { s.rx with decoder := .echo } } := by
  have hp : s.jobProfile i = some pr := by simp [State.jobProfile, hj, hp]
  simp only [State.frameStart, hj, hp]
  rfl

theorem Job.atFrameStart_eq (j : Job) : j.atFrameStart = { j with
    state := .sending, started := true, resumeFull := false
    deadlineMs := if j.started then j.deadlineMs else none
    deadlineTimer := if j.started then j.deadlineTimer else none } := by
  unfold Job.atFrameStart
  cases h : j.started <;> simp

theorem State.modifyJob_jobs_self {s : State} {i : SlotId} {j : Job} (hj : s.job i = some j) (f : Job → Job) :
    (s.modifyJob i f).jobs[i] = { ticket := s.ticket i, job := some (f j) } := by
  have hj : s.jobs[i].job = some j := hj
  simp only [State.modifyJob, Fin.getElem_fin, Vector.getElem_set_self] at hj ⊢
  rw [hj]
  rfl

theorem State.modifyJob_jobs_ne (s : State) {i k : SlotId} (h : k ≠ i) (f : Job → Job) :
    (s.modifyJob i f).jobs[k] = s.jobs[k] := by
  simp [State.modifyJob, Fin.getElem_fin, Fin.val_ne_of_ne (Ne.symm h)]

end Sys2Proof.Machine

section
open Sys2Proof Sys2Proof.Machine

/-- Settles O6: the receiver's and the guard's counts, and the drive moved one tick on within its segment or into the
next. -/
theorem lineTickAdvancesLine : Obligations.LineTickAdvancesLine := by
  refine ⟨fun s => ?_, fun tx detect h => Transmitter.tick_idle detect h, fun tx detect d g hd hg => ?_⟩
  · change execLineTick s = _
    rw [execLineTick, Receiver.tick_eq, Arbiter.tick_eq]
  · rw [Transmitter.tick_driving hg detect hd]
    refine ⟨d.advance, rfl, Drive.advance_within hg, Drive.advance_next hg, rfl, fun g' hg' k hk => ?_⟩
    dsimp only
    rw [if_neg (by simp [Drive.finished_eq_false hg']), Drive.pinLevels_getLsbD hg' hk, Drive.markLevel_eq]
    rw [d.advance_rest]

/-- Settles O7: the timers of every job, of the arbiter and of the tracker are lowered at one step. -/
theorem millisecondTickLowersTimers : Obligations.MillisecondTickLowersTimers := by
  refine ⟨fun s due => ⟨_, execMillisecondTick_due due, fun i => ?_, rfl⟩,
    fun s early => execMillisecondTick_early early⟩
  have clock (n : Nat) (ms : BitVec 32) :
      State.ticket { s.lowerTimers with tickCount := n, ms := ms } i = s.ticket i ∧
        State.job { s.lowerTimers with tickCount := n, ms := ms } i = (s.job i).map Job.lowerTimers :=
    ⟨s.lowerTimers_ticket i, s.lowerTimers_job i⟩
  exact clock _ _

/-- Settles O20: the frame start written out, with the first segment a mark. -/
theorem frameStartTakesTheLine : Obligations.FrameStartTakesTheLine := by
  intro s i j pr hj hp
  refine ⟨_, _, _, State.frameStart_eq hj hp, rfl, rfl, rfl, rfl, rfl, rfl, ?_, ?_,
    fun k hk => s.modifyJob_jobs_ne hk _⟩
  · obtain ⟨n, rest, leader⟩ := pr.segments_head (j.nextForm pr) j.address j.data
    have first : (j.buildDrive pr i).segments[(j.buildDrive pr i).position]? = some ⟨.mark, n⟩ := by
      simp [Job.buildDrive, leader]
    refine ⟨by simp [Job.buildDrive, leader], fun k hk => ?_⟩
    have start : 8 * (j.buildDrive pr i).driven + k = k := by simp [Job.buildDrive]
    rw [Drive.pinLevels_getLsbD first hk, Drive.markLevel_eq, start]
    rfl
  · rw [State.modifyJob_jobs_self hj, Job.atFrameStart_eq]

end
end

section
/-! PROOFS. The body bits of a frame: their number, and the fields that are read back from them (R6, R114, R187). -/

-- The proofs run one after another, for the memory limit of the check.
set_option Elab.async false

namespace Sys2Proof.Machine

/-! ### Fields -/

@[simp] theorem fieldBits_length (w n : Nat) : (fieldBits w n).length = w := by simp [fieldBits]

/-- R187: the bits of a field spell its number again. -/
theorem bitsNumber_fieldBits {w n : Nat} (h : n < 2 ^ w) : bitsNumber (fieldBits w n) = n := by
  apply Nat.eq_of_testBit_eq
  intro k
  rw [bitsNumber_testBit, fieldBits]
  by_cases hk : k < w
  · simp [hk]
  · have high : n < 2 ^ k := h.trans_le (Nat.pow_le_pow_right (by omega) (by omega))
    simp [hk, Nat.testBit_lt_two_pow high]

theorem byte_fieldBits (b : Byte) : byte (bitsNumber (fieldBits 8 b.toNat)) = b := by
  rw [bitsNumber_fieldBits b.isLt, byte, BitVec.ofNat_toNat, BitVec.setWidth_eq]

/-- R6, R187: the address and, under COUNTED, the count of data bytes. -/
def Profile.headerBits (pr : Profile) (address : Byte) (n : Nat) : List Bool :=
  fieldBits 8 address.toNat ++ (if pr.counts then fieldBits 4 n else [])

/-- R6, R187: the data list. -/
def dataBits (data : List Byte) : List Bool := data.flatMap fun b => fieldBits 8 b.toNat

/-- R6, R187: the check byte, where the profile has one. -/
def Profile.checkBits (pr : Profile) (address : Byte) (data : List Byte) : List Bool :=
  if pr.checks then fieldBits 8 (pr.checkByte address data).toNat else []

section
variable (pr : Profile) (address : Byte) (data : List Byte)

theorem Profile.bodyBits_eq :
    pr.bodyBits address data = pr.headerBits address data.length ++ dataBits data ++ pr.checkBits address data := rfl

theorem Profile.headerBits_length (n : Nat) : (pr.headerBits address n).length = if pr.counts then 12 else 8 := by
  unfold Profile.headerBits
  split <;> simp

theorem dataBits_length : (dataBits data).length = 8 * data.length := by
  simp [dataBits, List.length_flatMap, Nat.mul_comm]

theorem Profile.checkBits_length : (pr.checkBits address data).length = if pr.checks then 8 else 0 := by
  unfold Profile.checkBits
  split <;> simp

/-- R114: N for a frame is the number of its body bits. -/
theorem Profile.bodyBits_length : (pr.bodyBits address data).length = pr.bodyLength data.length := by
  rw [Profile.bodyBits_eq, List.length_append, List.length_append, pr.headerBits_length, dataBits_length,
    pr.checkBits_length]
  rfl

theorem Profile.headerBits_take (n : Nat) : (pr.headerBits address n).take 8 = fieldBits 8 address.toNat := by
  rw [Profile.headerBits, List.take_left' (fieldBits_length 8 _)]

/-- R114: the bytes at the place of the data list are its bytes. -/
theorem bytesAt_dataBits (before after : List Bool) :
    bytesAt (before ++ dataBits data ++ after) before.length data.length = data := by
  induction data generalizing before with
  | nil => rfl
  | cons b data ih =>
    have split : before ++ dataBits (b :: data) ++ after =
        (before ++ fieldBits 8 b.toNat) ++ dataBits data ++ after := by simp [dataBits]
    have first : (((before ++ dataBits (b :: data) ++ after).drop before.length).take 8) = fieldBits 8 b.toNat := by
      simp [dataBits]
    have rest := ih (before ++ fieldBits 8 b.toNat)
    rw [← split, List.length_append, fieldBits_length] at rest
    rw [List.length_cons, bytesAt, first, byte_fieldBits, rest]

/-- R9: where there is no check byte, its value is not used. -/
theorem Profile.byte_checkBits : byte (bitsNumber (pr.checkBits address data)) = pr.checkByte address data := by
  unfold Profile.checkBits
  split
  · exact byte_fieldBits _
  · rename_i h
    have none : pr.check = .noCheck := by simpa [Profile.checks] using h
    simp [Profile.checkByte, none, bitsNumber, byte]

/-- R6, R114, R187: the fields of body bits are those they were made from. -/
theorem Profile.fieldsOf_bodyBits :
    pr.fieldsOf (pr.bodyBits address data) = (address, data, pr.checkByte address data) := by
  have header := pr.headerBits_length address data.length
  have count : (pr.bodyLength data.length - (if pr.counts then 12 else 8) - if pr.checks then 8 else 0) / 8 =
      data.length := by
    unfold Profile.bodyLength
    omega
  have first : (pr.bodyBits address data).take 8 = fieldBits 8 address.toNat := by
    rw [Profile.bodyBits_eq, List.append_assoc, List.take_append_of_le_length (by rw [header]; split <;> omega),
      pr.headerBits_take]
  have last : (pr.bodyBits address data).drop ((if pr.counts then 12 else 8) + 8 * data.length) =
      pr.checkBits address data := by
    rw [Profile.bodyBits_eq, List.drop_left' (by rw [List.length_append, header, dataBits_length])]
  have bytes : bytesAt (pr.bodyBits address data) (if pr.counts then 12 else 8) data.length = data := by
    rw [← header, Profile.bodyBits_eq, bytesAt_dataBits]
  simp only [Profile.fieldsOf, Profile.bodyBits_length, count, first, last, bytes, byte_fieldBits,
    Profile.byte_checkBits]

end

end Sys2Proof.Machine

section
open Sys2Proof Sys2Proof.Machine

/-- Settles O49: address, data list and check byte are each read at their own place. -/
theorem bodyBitsHoldTheirFields : Obligations.BodyBitsHoldTheirFields := Profile.fieldsOf_bodyBits

end
end

section
/-! PROOFS. A frame on the line decodes to itself under PDIST and PWIDTH (R6 to R9, R12, R70, R111 to R118): the
joined segments, the tolerance of each of them, and the decoder's state after each body bit. -/

-- The proofs run one after another, for the memory limit of the check.
set_option Elab.async false

namespace Sys2Proof.Machine

/-! ### Joined segments -/

/-- R70: a piece whose neighbour has the other level stays a segment. -/
theorem joinSegments_cons_ne {x : Segment} {xs : List Segment} (h : ∀ y ∈ xs.head?, x.level ≠ y.level) :
    joinSegments (x :: xs) = x :: joinSegments xs := by
  cases xs with
  | nil => rfl
  | cons y ys =>
    obtain ⟨n, rest, hy⟩ := joinSegments_head y ys
    have ne : x.level ≠ y.level := h y rfl
    rw [joinSegments, hy]
    simp [ne]

/-- R70: two neighbours of one level are one segment. -/
theorem joinSegments_cons_eq {l : Level} {m n : Nat} {xs : List Segment} (h : ∀ y ∈ xs.head?, l ≠ y.level) :
    joinSegments (⟨l, m⟩ :: ⟨l, n⟩ :: xs) = ⟨l, m + n⟩ :: joinSegments xs := by
  rw [joinSegments, joinSegments_cons_ne h]
  simp

theorem joinSegments_cons_ne_nil (x : Segment) (xs : List Segment) : joinSegments (x :: xs) ≠ [] := by
  obtain ⟨n, rest, h⟩ := joinSegments_head x xs
  simp [h]

/-! ### Tolerance -/

section
variable {pr : Profile} {n : Nat}

theorem Profile.acceptsHalves_iff {h : Nat} :
    pr.acceptsHalves h n = true ↔ 3 * (h * pr.cellUs) ≤ 8 * n ∧ 8 * n ≤ 5 * (h * pr.cellUs) := by
  simp [Profile.acceptsHalves]

theorem Profile.acceptsCells_iff {k : Nat} :
    pr.acceptsCells k n = true ↔ 6 * (k * pr.cellUs) ≤ 8 * n ∧ 8 * n ≤ 10 * (k * pr.cellUs) := by
  rw [Profile.acceptsCells, Profile.acceptsHalves_iff, Nat.mul_assoc 2]
  omega

/-- R12: whole cells are accepted for their own number. -/
theorem Profile.acceptsCells_cells : pr.acceptsCells n (pr.cells n) = true := by
  rw [Profile.acceptsCells_iff, Profile.cells]
  omega

/-- R12: two cells or more are too long for one. -/
theorem Profile.acceptsCells_one_cells (hc : 100 ≤ pr.cellUs) (hn : 2 ≤ n) :
    pr.acceptsCells 1 (pr.cells n) = false := by
  have long : 2 * pr.cellUs ≤ n * pr.cellUs := Nat.mul_le_mul_right _ hn
  rw [Bool.eq_false_iff, ne_eq, Profile.acceptsCells_iff, Profile.cells]
  omega

/-- R12: each half of a split cell is accepted for a half cell, odd cells included. -/
theorem Profile.acceptsHalves_half (hc : 100 ≤ pr.cellUs) (hn : n = pr.firstHalf ∨ n = pr.secondHalf) :
    pr.acceptsHalves 1 n = true := by
  simp only [Profile.firstHalf, Profile.secondHalf] at hn
  rw [Profile.acceptsHalves_iff]
  omega

/-- R12: the two halves joined are accepted for a cell, and not for a half cell. -/
theorem Profile.accepts_joinedHalves (hc : 100 ≤ pr.cellUs) :
    pr.acceptsHalves 1 (pr.secondHalf + pr.firstHalf) = false ∧
      pr.acceptsCells 1 (pr.secondHalf + pr.firstHalf) = true := by
  have whole : pr.secondHalf + pr.firstHalf = pr.cellUs := by
    simp only [Profile.firstHalf, Profile.secondHalf]
    omega
  rw [whole, Bool.eq_false_iff, ne_eq, Profile.acceptsHalves_iff, Profile.acceptsCells_iff]
  omega

/-- R112: a leader space as it is sent is accepted for a frame. -/
theorem Profile.shapeOf_leaderSpace : pr.shapeOf (pr.cells pr.leaderSpace) = some .frame := by
  simp [Profile.shapeOf, Profile.acceptsFrameSpace, Profile.acceptsCells_cells]

/-- R117: a leader space without a half cell does not begin the half stream. -/
theorem Profile.startsWithHalf_leaderSpace : pr.startsWithHalf (pr.cells pr.leaderSpace) = false := by
  have far : ¬(4 * pr.leaderSpace + 1) * pr.cellUs < 4 * pr.cells pr.leaderSpace := by
    simp only [Profile.cells, Nat.add_mul, Nat.mul_assoc]
    omega
  simp [Profile.startsWithHalf, Profile.acceptsCells_cells, far]

/-- R112: a leader space with a half cell joined to it is accepted for its own nominal. -/
theorem Profile.acceptsHalves_leaderSpace_half (hc : 100 ≤ pr.cellUs) :
    pr.acceptsHalves (2 * pr.leaderSpace + 1) (pr.cells pr.leaderSpace + pr.firstHalf) = true := by
  rw [Profile.acceptsHalves_iff]
  simp only [Profile.cells, Profile.firstHalf, Nat.add_mul, Nat.mul_assoc]
  omega

theorem Profile.shapeOf_leaderSpace_half (hs : pr.coding = .split) (hc : 100 ≤ pr.cellUs) :
    pr.shapeOf (pr.cells pr.leaderSpace + pr.firstHalf) = some .frame := by
  simp [Profile.shapeOf, Profile.acceptsFrameSpace, hs, Profile.acceptsHalves_leaderSpace_half hc]

/-- R117: it begins the half stream, for it is nearer to its own nominal. -/
theorem Profile.startsWithHalf_leaderSpace_half (hs : pr.coding = .split) (hc : 100 ≤ pr.cellUs) :
    pr.startsWithHalf (pr.cells pr.leaderSpace + pr.firstHalf) = true := by
  have near : (4 * pr.leaderSpace + 1) * pr.cellUs < 4 * (pr.cells pr.leaderSpace + pr.firstHalf) := by
    simp only [Profile.cells, Profile.firstHalf, Nat.add_mul, Nat.mul_assoc]
    omega
  simp [Profile.startsWithHalf, hs, Profile.acceptsHalves_leaderSpace_half hc, near]

end

/-! ### The decoder between two bits -/

/-- The decoder in BITS for a frame of N body bits, when it has decoded the first of them (R114). -/
def Profile.reading (pr : Profile) (q : ProfileId) (N : Nat) (bits : List Bool) (halves : List Level) : Decoding :=
  { winner := q, shape := .frame, bits := bits
    expected := if pr.counts = true ∧ bits.length < 12 then none else some N, halves := halves }

/-- The data list may be sent under the profile (R28), and B are the body bits it gives. -/
structure Profile.Sends (pr : Profile) (address : Byte) (data : List Byte) (B : List Bool) : Prop where
  fixed : pr.counts = false → data.length = pr.fixedLen
  short : data.length ≤ 6
  bits  : B = pr.bodyBits address data

theorem Profile.sends_of_mode {pr : Profile} {address : Byte} {data : List Byte}
    (fixed : pr.lengthMode = .fixed → data.length = pr.fixedLen) (short : data.length ≤ 6) :
    pr.Sends address data (pr.bodyBits address data) where
  fixed := fun h => fixed (by
    cases hm : pr.lengthMode with
    | fixed => rfl
    | counted => simp [Profile.counts, hm] at h)
  short := short
  bits := rfl

section
variable {pr : Profile} {q : ProfileId} {address : Byte} {data : List Byte} {B : List Bool}

theorem Profile.Sends.length (h : pr.Sends address data B) : B.length = pr.bodyLength data.length := by
  rw [h.bits, pr.bodyBits_length]

theorem Profile.Sends.length_counted (h : pr.Sends address data B) (hc : pr.counts = true) : 12 ≤ B.length := by
  rw [h.length, Profile.bodyLength, hc]
  simp only [if_true]
  omega

/-- R6: a frame has at least its address. -/
theorem Profile.Sends.ne_nil (h : pr.Sends address data B) : B ≠ [] := by
  intro empty
  have := h.length
  rw [empty, Profile.bodyLength] at this
  simp only [List.length_nil] at this
  split at this <;> omega

/-- R8, R187: under COUNTED bits 8 to 11 are the count. -/
theorem Profile.Sends.count (h : pr.Sends address data B) (hc : pr.counts = true) :
    bitsNumber ((B.take 12).drop 8) = data.length := by
  have header : B.take 12 = fieldBits 8 address.toNat ++ fieldBits 4 data.length := by
    rw [h.bits, Profile.bodyBits_eq, Profile.headerBits, hc, if_pos rfl, List.append_assoc,
      List.take_left' (by simp)]
  have := h.short
  rw [header, List.drop_left' (fieldBits_length 8 _), bitsNumber_fieldBits (by omega)]

/-- R114: the decoder as a leader space of d ticks leaves it. -/
theorem Profile.Sends.start (h : pr.Sends address data B) (d : Nat) :
    pr.startDecoding q .frame d = pr.reading q B.length [] (if pr.startsWithHalf d then [.space] else []) := by
  unfold Profile.startDecoding Profile.reading Profile.expectedAtStart
  cases hc : pr.counts with
  | true => simp
  | false => simp [h.length, h.fixed hc]

/-- R114: the next body bit is decoded, and the twelfth bit of a COUNTED frame gives N. -/
theorem Profile.Sends.pushBit (h : pr.Sends address data B) {pre post : List Bool} {b : Bool}
    (hB : B = pre ++ b :: post) (halves : List Level) :
    (pr.reading q B.length pre halves).pushBit pr b = .going (pr.reading q B.length (pre ++ [b]) halves) := by
  by_cases twelfth : pr.counts = true ∧ pre.length = 11
  · obtain ⟨hc, len⟩ := twelfth
    have bits : B.take 12 = pre ++ [b] := by
      rw [hB, show pre ++ b :: post = (pre ++ [b]) ++ post by simp, List.take_left' (by simp [len])]
    have count : bitsNumber ((pre ++ [b]).drop 8) = data.length := by rw [← bits, h.count hc]
    have short := h.short
    simp only [Decoding.pushBit, Profile.reading, count]
    rw [if_pos (by simp [hc, len]), if_neg (by omega), h.length]
    simp [len]
  · have other : ¬(pr.counts && (pre ++ [b]).length == 12) = true := by
      simpa using twelfth
    have known : (pr.counts = true ∧ pre.length < 12) ↔ (pr.counts = true ∧ (pre ++ [b]).length < 12) := by
      simp only [List.length_append, List.length_singleton]
      refine ⟨fun ⟨hc, hl⟩ => ⟨hc, ?_⟩, fun ⟨hc, hl⟩ => ⟨hc, by omega⟩⟩
      have : ¬pre.length = 11 := fun h => twelfth ⟨hc, h⟩
      omega
    unfold Profile.reading Decoding.pushBit
    dsimp only
    rw [if_neg other]
    simp only [known]

/-- R114: N is known when all body bits are decoded. -/
theorem Profile.Sends.complete (h : pr.Sends address data B) (halves : List Level) :
    (pr.reading q B.length B halves).complete = true := by
  have known : ¬(pr.counts = true ∧ B.length < 12) := fun ⟨hc, hl⟩ => by
    have := h.length_counted hc
    omega
  simp [Decoding.complete, Profile.reading, known]

/-- R114: and no earlier bit completes the frame. -/
theorem Profile.reading_incomplete {bits : List Bool} {halves : List Level} {N : Nat} (hb : bits.length < N) :
    (pr.reading q N bits halves).complete = false := by
  unfold Decoding.complete Profile.reading
  split
  · rfl
  · simp
    omega

/-! ### Marks and spaces of a body -/

/-- R115 to R117: a mark is judged at its end. -/
theorem decodeSegments_mark {d d' : Decoding} {n : Nat} (rest : List Segment) (h : d.judgeMark pr n = .going d') :
    Claims.decodeSegments pr (⟨.mark, n⟩ :: rest) d = Claims.decodeSegments pr rest d' := by
  simp [Claims.decodeSegments, h]

/-- R115 to R117: a space is judged when the next mark ends it. -/
theorem decodeSegments_space {d d' : Decoding} {n : Nat} {rest : List Segment} (hr : rest ≠ [])
    (h : d.judgeSpace pr n = .going d') :
    Claims.decodeSegments pr (⟨.space, n⟩ :: rest) d = Claims.decodeSegments pr rest d' := by
  simp [Claims.decodeSegments, hr, h]

/-- R6, R108: the space after the last mark is part of the end gap. -/
theorem decodeSegments_lastSpace (d : Decoding) (n : Nat) :
    Claims.decodeSegments pr [⟨.space, n⟩] d = .going d := by
  simp [Claims.decodeSegments]

/-! ### The pulse codings -/

/-- Under PDIST and PWIDTH a bit is a mark and a space (R7). -/
theorem Profile.bitSegments_pulse (hp : pr.coding ≠ .split) (b : Bool) :
    ∃ m n, pr.bitSegments b = [⟨.mark, m⟩, ⟨.space, n⟩] := by
  unfold Profile.bitSegments
  split
  · exact ⟨_, _, rfl⟩
  · exact ⟨_, _, rfl⟩
  · exact absurd ‹_› hp

/-- A pulse-coded body begins with a mark. -/
theorem Profile.pulses_head (hp : pr.coding ≠ .split) (bits : List Bool) :
    ∀ y ∈ (bits.flatMap pr.bitSegments ++ pr.stopMark).head?, y.level = .mark := by
  intro y hy
  cases bits with
  | nil =>
    unfold Profile.stopMark at hy
    split at hy
    · cases hy; rfl
    · cases hy
  | cons b bits =>
    obtain ⟨m, n, hb⟩ := Profile.bitSegments_pulse hp b
    rw [List.flatMap_cons, hb] at hy
    cases hy
    rfl

/-- R70: no two pieces of a pulse-coded body join. -/
theorem Profile.joinSegments_pulses (hp : pr.coding ≠ .split) (bits : List Bool) :
    joinSegments (bits.flatMap pr.bitSegments ++ pr.stopMark) = bits.flatMap pr.bitSegments ++ pr.stopMark := by
  induction bits with
  | nil =>
    unfold Profile.stopMark
    split <;> rfl
  | cons b bits ih =>
    obtain ⟨m, n, hb⟩ := Profile.bitSegments_pulse hp b
    have space : ∀ y ∈ (bits.flatMap pr.bitSegments ++ pr.stopMark).head?, Level.space ≠ y.level := fun y hy => by
      rw [Profile.pulses_head hp bits y hy]; decide
    rw [List.flatMap_cons, hb, List.append_assoc]
    simp only [List.cons_append, List.nil_append]
    rw [joinSegments_cons_ne (by simp), joinSegments_cons_ne space, ih]

/-- R70: the segments of a pulse-coded frame are its pieces. -/
theorem Profile.frameSegments_pulse (hp : pr.coding ≠ .split) (address : Byte) (data : List Byte) :
    pr.frameSegments address data = ⟨.mark, pr.cells pr.leaderMark⟩ :: ⟨.space, pr.cells pr.leaderSpace⟩ ::
      ((pr.bodyBits address data).flatMap pr.bitSegments ++ pr.stopMark) := by
  have space : ∀ y ∈ ((pr.bodyBits address data).flatMap pr.bitSegments ++ pr.stopMark).head?, Level.space ≠ y.level :=
    fun y hy => by rw [Profile.pulses_head hp _ y hy]; decide
  unfold Profile.frameSegments
  rw [List.append_assoc]
  simp only [List.cons_append, List.nil_append]
  rw [joinSegments_cons_ne (by simp), joinSegments_cons_ne space, Profile.joinSegments_pulses hp]

/-- R115, R116: while bits are missing, a pulse-coded frame cannot close. -/
theorem Profile.reading_not_closable_pulse (hp : pr.coding ≠ .split) {bits : List Bool} {N : Nat}
    (hb : bits.length < N) : (pr.reading q N bits []).closable pr = false := by
  unfold Decoding.closable
  split
  · exact Profile.reading_incomplete hb
  · exact Profile.reading_incomplete hb
  · exact absurd ‹_› hp

/-- R115: the space of a PDIST bit gives the bit. -/
theorem Profile.Sends.judgeSpace_pdist (h : pr.Sends address data B) (hd : pr.coding = .pdist) (hc : 100 ≤ pr.cellUs)
    {pre post : List Bool} {b : Bool} (hB : B = pre ++ b :: post) :
    (pr.reading q B.length pre []).judgeSpace pr (pr.cells (if b then 3 else 1)) =
      .going (pr.reading q B.length (pre ++ [b]) []) := by
  have unfinished := Profile.reading_not_closable_pulse (q := q) (N := B.length) (by simp [hd] : pr.coding ≠ .split)
    (show pre.length < B.length by simp [hB])
  unfold Decoding.judgeSpace
  rw [show (pr.reading q B.length pre []).shape = .frame from rfl]
  cases b with
  | false => simp [unfinished, hd, Profile.acceptsCells_cells, h.pushBit hB]
  | true =>
    simp [unfinished, hd, Profile.acceptsCells_cells, Profile.acceptsCells_one_cells hc (by omega : 2 ≤ 3),
      h.pushBit hB]

/-- R116: the mark of a PWIDTH bit gives the bit. -/
theorem Profile.Sends.judgeMark_pwidth (h : pr.Sends address data B) (hw : pr.coding = .pwidth) (hc : 100 ≤ pr.cellUs)
    {pre post : List Bool} {b : Bool} (hB : B = pre ++ b :: post) :
    (pr.reading q B.length pre []).judgeMark pr (pr.cells (if b then 2 else 1)) =
      .going (pr.reading q B.length (pre ++ [b]) []) := by
  unfold Decoding.judgeMark
  rw [show (pr.reading q B.length pre []).shape = .frame from rfl]
  cases b with
  | false => simp [hw, Profile.acceptsCells_cells, h.pushBit hB]
  | true => simp [hw, Profile.acceptsCells_cells, Profile.acceptsCells_one_cells hc (le_refl 2), h.pushBit hB]

/-- R115: a PDIST body, from any bit on. -/
theorem Profile.Sends.decode_pdist (h : pr.Sends address data B) (hd : pr.coding = .pdist) (hc : 100 ≤ pr.cellUs)
    {pre post : List Bool} (hB : B = pre ++ post) :
    Claims.decodeSegments pr (post.flatMap pr.bitSegments ++ pr.stopMark) (pr.reading q B.length pre []) =
      .going (pr.reading q B.length B []) := by
  have mark (bits : List Bool) : (pr.reading q B.length bits []).judgeMark pr (pr.cells 1) =
      .going (pr.reading q B.length bits []) := by
    unfold Decoding.judgeMark
    rw [show (pr.reading q B.length bits []).shape = .frame from rfl]
    simp [hd, Profile.acceptsCells_cells]
  have stop : pr.stopMark = [⟨.mark, pr.cells 1⟩] := if_pos hd
  induction post generalizing pre with
  | nil =>
    rw [List.append_nil] at hB
    rw [List.flatMap_nil, List.nil_append, stop, decodeSegments_mark _ (mark pre), hB]
    rfl
  | cons b post ih =>
    have pieces : pr.bitSegments b = [⟨.mark, pr.cells 1⟩, ⟨.space, pr.cells (if b then 3 else 1)⟩] := by
      simp only [Profile.bitSegments, hd]
    rw [List.flatMap_cons, pieces, List.append_assoc]
    simp only [List.cons_append, List.nil_append]
    rw [decodeSegments_mark _ (mark pre), decodeSegments_space (by simp [stop]) (h.judgeSpace_pdist hd hc hB)]
    exact ih (by simp [hB])

/-- R116: a PWIDTH body, from any bit on. -/
theorem Profile.Sends.decode_pwidth (h : pr.Sends address data B) (hw : pr.coding = .pwidth) (hc : 100 ≤ pr.cellUs)
    {pre post : List Bool} (hB : B = pre ++ post) :
    Claims.decodeSegments pr (post.flatMap pr.bitSegments ++ pr.stopMark) (pr.reading q B.length pre []) =
      .going (pr.reading q B.length B []) := by
  have stop : pr.stopMark = [] := if_neg (by simp [hw])
  have pieces (b : Bool) : pr.bitSegments b = [⟨.mark, pr.cells (if b then 2 else 1)⟩, ⟨.space, pr.cells 1⟩] := by
    simp only [Profile.bitSegments, hw]
  have space {bits : List Bool} (hl : bits.length < B.length) :
      (pr.reading q B.length bits []).judgeSpace pr (pr.cells 1) = .going (pr.reading q B.length bits []) := by
    unfold Decoding.judgeSpace
    rw [show (pr.reading q B.length bits []).shape = .frame from rfl]
    simp [Profile.reading_not_closable_pulse (by simp [hw] : pr.coding ≠ .split) hl, hw, Profile.acceptsCells_cells]
  rw [stop, List.append_nil]
  induction post generalizing pre with
  | nil =>
    rw [List.append_nil] at hB
    rw [hB]
    rfl
  | cons b post ih =>
    rw [List.flatMap_cons, pieces]
    simp only [List.cons_append, List.nil_append]
    rw [decodeSegments_mark _ (h.judgeMark_pwidth hw hc hB)]
    cases post with
    | nil => rw [List.flatMap_nil, decodeSegments_lastSpace, hB]
    | cons b' post =>
      rw [decodeSegments_space (by simp [pieces]) (space (by simp [hB]))]
      exact ih (by simp [hB])

end

end Sys2Proof.Machine

section
open Sys2Proof Sys2Proof.Machine

/-- Settles O50: no pieces join, every piece is accepted for its own nominal alone, and the bits are all there at the
end gap. -/
theorem pulseFrameDecodesToItself : Obligations.PulseFrameDecodesToItself := by
  intro pr hp hc q address data fixed short
  have sends := Profile.sends_of_mode (address := address) fixed short
  have start := sends.start (q := q) (pr.cells pr.leaderSpace)
  rw [Profile.startsWithHalf_leaderSpace, if_neg (by simp)] at start
  have complete := sends.complete (q := q) []
  have closed : (pr.reading q (pr.bodyBits address data).length (pr.bodyBits address data) []).closable pr = true := by
    unfold Decoding.closable
    split
    · exact complete
    · exact complete
    · exact absurd ‹_› hp
  refine ⟨_, _, _, _, Profile.frameSegments_pulse hp address data, Profile.acceptsCells_cells,
    Profile.shapeOf_leaderSpace, ?_, rfl, rfl, closed, ?_⟩
  · rw [start]
    cases hd : pr.coding with
    | pdist => exact sends.decode_pdist hd hc rfl
    | pwidth => exact sends.decode_pwidth hd hc rfl
    | split => exact absurd hd hp
  · rw [Decoding.closedBits, if_pos complete]
    exact Profile.fieldsOf_bodyBits pr address data

end
end

section
/-! PROOFS. A frame under SPLIT decodes to itself (R7, R12, R70, R117): its half cells join across the bounds of bits,
and the decoder takes them apart again. -/

-- The proofs run one after another, for the memory limit of the check.
set_option Elab.async false

namespace Sys2Proof.Machine

/-! ### Half cells -/

/-- R7: the first half of a bit; the second half has the level of the other bit. -/
def halfLevel (b : Bool) : Level := if b then .mark else .space

/-- R117: the half stream of bits. -/
def halvesOf (bits : List Bool) : List Level := bits.flatMap fun b => [halfLevel b, halfLevel !b]

@[simp] theorem halvesOf_length (bits : List Bool) : (halvesOf bits).length = 2 * bits.length := by
  simp [halvesOf, List.length_flatMap, Nat.mul_comm]

theorem halvesOf_append (pre : List Bool) (b : Bool) :
    halvesOf (pre ++ [b]) = halvesOf pre ++ [halfLevel b] ++ [halfLevel !b] := by simp [halvesOf]

section
variable {pr : Profile} {q : ProfileId} {address : Byte} {data : List Byte} {B : List Bool}

theorem Profile.bitSegments_split (hs : pr.coding = .split) (b : Bool) :
    pr.bitSegments b = [⟨halfLevel b, pr.firstHalf⟩, ⟨halfLevel !b, pr.secondHalf⟩] := by
  cases b <;> simp [Profile.bitSegments, hs, halfLevel]

/-! ### Joined half cells -/

/-- The segments from the second half of bit b on, with the bits that follow it. -/
def Profile.splitTail (pr : Profile) (b : Bool) (post : List Bool) : List Segment :=
  joinSegments (⟨halfLevel !b, pr.secondHalf⟩ :: post.flatMap pr.bitSegments)

theorem Profile.splitTail_ne_nil (b : Bool) (post : List Bool) : pr.splitTail b post ≠ [] :=
  joinSegments_cons_ne_nil _ _

/-- R70: the halves of one bit do not join. -/
theorem Profile.joinSegments_bit (hs : pr.coding = .split) (b : Bool) (post : List Bool) :
    joinSegments ((b :: post).flatMap pr.bitSegments) = ⟨halfLevel b, pr.firstHalf⟩ :: pr.splitTail b post := by
  have ne : halfLevel b ≠ halfLevel !b := by cases b <;> decide
  rw [List.flatMap_cons, Profile.bitSegments_split hs]
  exact joinSegments_cons_ne (by simpa using ne)

/-- R70: the second half of a bit stays a segment before an equal bit. -/
theorem Profile.splitTail_same (hs : pr.coding = .split) (b : Bool) (post : List Bool) :
    pr.splitTail b (b :: post) =
      ⟨halfLevel !b, pr.secondHalf⟩ :: ⟨halfLevel b, pr.firstHalf⟩ :: pr.splitTail b post := by
  have ne : halfLevel (!b) ≠ halfLevel b := by cases b <;> decide
  rw [Profile.splitTail, joinSegments_cons_ne, Profile.joinSegments_bit hs]
  rw [List.flatMap_cons, Profile.bitSegments_split hs]
  simpa using ne

/-- R70: the second half of a bit joins the first half of the other bit. -/
theorem Profile.splitTail_other (hs : pr.coding = .split) (b : Bool) (post : List Bool) :
    pr.splitTail b ((!b) :: post) = ⟨halfLevel !b, pr.secondHalf + pr.firstHalf⟩ :: pr.splitTail (!b) post := by
  have ne : halfLevel (!b) ≠ halfLevel !!b := by cases b <;> decide
  rw [Profile.splitTail, List.flatMap_cons, Profile.bitSegments_split hs]
  exact joinSegments_cons_eq (by simpa using ne)

/-- R70: the segments of a SPLIT frame whose first bit is 1. -/
theorem Profile.frameSegments_split_one (hs : pr.coding = .split) {post : List Bool}
    (hB : pr.bodyBits address data = true :: post) :
    pr.frameSegments address data = ⟨.mark, pr.cells pr.leaderMark⟩ :: ⟨.space, pr.cells pr.leaderSpace⟩ ::
      ⟨.mark, pr.firstHalf⟩ :: pr.splitTail true post := by
  have stop : pr.stopMark = [] := if_neg (by simp [hs])
  have mark := Profile.joinSegments_bit hs true post
  have first : ∀ y ∈ ((true :: post).flatMap pr.bitSegments).head?, Level.space ≠ y.level := by
    rw [List.flatMap_cons, Profile.bitSegments_split hs]
    simp [halfLevel]
  rw [Profile.frameSegments, stop, List.append_nil, hB]
  simp only [List.cons_append, List.nil_append]
  rw [joinSegments_cons_ne (by simp), joinSegments_cons_ne first, mark]
  rfl

/-- R70: the segments of a SPLIT frame whose first bit is 0: its first half joins the leader space. -/
theorem Profile.frameSegments_split_zero (hs : pr.coding = .split) {post : List Bool}
    (hB : pr.bodyBits address data = false :: post) :
    pr.frameSegments address data = ⟨.mark, pr.cells pr.leaderMark⟩ ::
      ⟨.space, pr.cells pr.leaderSpace + pr.firstHalf⟩ :: pr.splitTail false post := by
  have stop : pr.stopMark = [] := if_neg (by simp [hs])
  rw [Profile.frameSegments, stop, List.append_nil, hB, List.flatMap_cons, Profile.bitSegments_split hs]
  simp only [List.cons_append, List.nil_append]
  rw [joinSegments_cons_ne (by simp)]
  exact congrArg _ (joinSegments_cons_eq (by simp [halfLevel]))

/-! ### Half cells in the decoder -/

/-- R117: a half cell that leaves its pair incomplete. -/
theorem Decoding.pushHalf_opens {d : Decoding} (l : Level)
    (room : (d.expected.any fun n => decide (2 * n < (d.halves ++ [l]).length)) = false)
    (odd : (d.halves ++ [l]).length % 2 = 1) : d.pushHalf pr l = .going { d with halves := d.halves ++ [l] } := by
  simp only [Decoding.pushHalf, room, odd, if_true, Bool.false_eq_true, if_false]

/-- R117: a half cell that completes its pair with the other level. -/
theorem Decoding.pushHalf_closes {d : Decoding} {first l : Level}
    (room : (d.expected.any fun n => decide (2 * n < (d.halves ++ [l]).length)) = false)
    (even : ¬(d.halves ++ [l]).length % 2 = 1) (last : d.halves.getLast? = some first) (ne : first ≠ l) :
    d.pushHalf pr l = { d with halves := d.halves ++ [l] }.pushBit pr (first == Level.mark) := by
  simp only [Decoding.pushHalf, room, even, last, ne, Bool.false_eq_true, if_false]

/-- R117: the half stream has room up to 2N. -/
theorem Profile.reading_room {N : Nat} {bits : List Bool} {halves more : List Level} (hm : more.length ≤ 2 * N) :
    ((pr.reading q N bits halves).expected.any fun n => decide (2 * n < more.length)) = false := by
  unfold Profile.reading
  dsimp only
  split
  · rfl
  · simpa using hm

/-- R117: the first half of the next bit. -/
theorem Profile.pushHalf_first {pre : List Bool} (hl : pre.length < B.length) (l : Level) :
    (pr.reading q B.length pre (halvesOf pre)).pushHalf pr l =
      .going (pr.reading q B.length pre (halvesOf pre ++ [l])) :=
  Decoding.pushHalf_opens l (Profile.reading_room (by simp [Profile.reading]; omega)) (by simp [Profile.reading])

/-- R117: the second half of a bit completes it. -/
theorem Profile.Sends.pushHalf_second (h : pr.Sends address data B) {pre post : List Bool} {b : Bool}
    (hB : B = pre ++ b :: post) :
    (pr.reading q B.length pre (halvesOf pre ++ [halfLevel b])).pushHalf pr (halfLevel !b) =
      .going (pr.reading q B.length (pre ++ [b]) (halvesOf (pre ++ [b]))) := by
  have hl : pre.length < B.length := by simp [hB]
  have differ : halfLevel b ≠ halfLevel !b := by cases b <;> decide
  have value : (halfLevel b == .mark) = b := by cases b <;> rfl
  rw [Decoding.pushHalf_closes (Profile.reading_room (by simp [Profile.reading]; omega))
    (by simp [Profile.reading]) (by simp [Profile.reading]) differ, value, halvesOf_append]
  exact h.pushBit hB _

/-- R117: a segment of one half cell. -/
theorem Decoding.pushPiece_half (hc : 100 ≤ pr.cellUs) {n : Nat} (hn : n = pr.firstHalf ∨ n = pr.secondHalf)
    (d : Decoding) (l : Level) : d.pushPiece pr l n = d.pushHalf pr l :=
  if_pos (Profile.acceptsHalves_half hc hn)

/-- R117: a segment of two half cells. -/
theorem Decoding.pushPiece_joined (hc : 100 ≤ pr.cellUs) {d d' : Decoding} {l : Level}
    (h : d.pushHalf pr l = .going d') :
    d.pushPiece pr l (pr.secondHalf + pr.firstHalf) = d'.pushHalf pr l := by
  obtain ⟨no_half, cell⟩ := Profile.accepts_joinedHalves hc
  simp only [Decoding.pushPiece, no_half, cell, h, if_true, Bool.false_eq_true, if_false]

/-- R117: while more than a half cell is missing, a SPLIT frame cannot close. -/
theorem Profile.reading_not_closable_split (hs : pr.coding = .split) {bits : List Bool} {halves : List Level} {N : Nat}
    (hh : halves.length + 1 < 2 * N) : (pr.reading q N bits halves).closable pr = false := by
  unfold Decoding.closable Profile.reading
  rw [hs]
  dsimp only
  split
  · rfl
  · simp
    omega

/-- R117: a mark of a SPLIT body. -/
theorem Profile.decodeSegments_markPiece (hs : pr.coding = .split) {bits : List Bool} {halves : List Level} {N n : Nat}
    {d : Decoding} (rest : List Segment) (h : (pr.reading q N bits halves).pushPiece pr .mark n = .going d) :
    Claims.decodeSegments pr (⟨.mark, n⟩ :: rest) (pr.reading q N bits halves) = Claims.decodeSegments pr rest d := by
  refine decodeSegments_mark rest ?_
  rw [← h, Decoding.judgeMark, hs]
  rfl

/-- R117: a segment of a SPLIT body before the last. -/
theorem Profile.decodeSegments_piece (hs : pr.coding = .split) {bits : List Bool} {halves : List Level} {N n : Nat}
    {l : Level} {rest : List Segment} {d : Decoding} (hr : rest ≠ []) (hh : halves.length + 1 < 2 * N)
    (h : (pr.reading q N bits halves).pushPiece pr l n = .going d) :
    Claims.decodeSegments pr (⟨l, n⟩ :: rest) (pr.reading q N bits halves) = Claims.decodeSegments pr rest d := by
  cases l with
  | mark => exact Profile.decodeSegments_markPiece hs rest h
  | space =>
    refine decodeSegments_space hr ?_
    rw [← h, Decoding.judgeSpace, hs, Profile.reading_not_closable_split hs hh]
    rfl

/-! ### The whole body -/

/-- R117, R118: a decode that the end gap closes with the body bits B. -/
structure Decoding.ClosesWith (d : Decoding) (pr : Profile) (q : ProfileId) (B : List Bool) : Prop where
  winner   : d.winner = q
  shape    : d.shape = .frame
  closable : d.closable pr = true
  bits     : d.closedBits = B

/-- R117, R118: all half cells are there. -/
theorem Profile.Sends.closes_complete (h : pr.Sends address data B) (hs : pr.coding = .split) :
    (pr.reading q B.length B (halvesOf B)).ClosesWith pr q B where
  winner := rfl
  shape := rfl
  closable := by
    have known : ¬(pr.counts = true ∧ B.length < 12) := fun ⟨hc, hl⟩ => by
      have := h.length_counted hc
      omega
    simp [Decoding.closable, hs, Profile.reading, known]
  bits := if_pos (h.complete _)

/-- R8, R114: a body that ends in a 1 has more than its count field before that bit: the count of an empty data list
ends in a 0. -/
theorem Profile.Sends.known_before_last (h : pr.Sends address data B) {pre : List Bool} (hB : B = pre ++ [true]) :
    ¬(pr.counts = true ∧ pre.length < 12) := by
  rintro ⟨hc, hl⟩
  have twelve := h.length_counted hc
  have length := h.length
  simp only [hB, List.length_append, List.length_singleton] at twelve length
  simp only [Profile.bodyLength, hc, if_true] at length
  have empty : data = [] := List.length_eq_zero_iff.1 (by omega)
  have unchecked : pr.checks = false := by
    rw [Bool.eq_false_iff]
    intro checks
    simp only [checks, if_true] at length
    omega
  have last : B.getLast? = some false := by
    rw [h.bits, Profile.bodyBits_eq]
    simp [Profile.headerBits, Profile.checkBits, hc, unchecked, empty, dataBits, fieldBits, List.range_succ]
  simp [hB] at last

/-- R117, R118: the second half of a last bit 1 comes with the end gap. -/
theorem Profile.Sends.closes_lastOne (h : pr.Sends address data B) (hs : pr.coding = .split) {pre : List Bool}
    (hB : B = pre ++ [true]) : (pr.reading q B.length pre (halvesOf pre ++ [.mark])).ClosesWith pr q B where
  winner := rfl
  shape := rfl
  closable := by
    have length : B.length = pre.length + 1 := by simp [hB]
    simp [Decoding.closable, hs, Profile.reading, h.known_before_last hB, length]
    omega
  bits := by
    have unfinished := Profile.reading_incomplete (pr := pr) (q := q) (halves := halvesOf pre ++ [.mark])
      (show pre.length < B.length by simp [hB])
    rw [Decoding.closedBits, unfinished]
    exact hB.symm

/-- R117: a SPLIT body from the second half of any bit on. -/
theorem Profile.Sends.decode_splitTail (h : pr.Sends address data B) (hs : pr.coding = .split) (hc : 100 ≤ pr.cellUs)
    {pre post : List Bool} {b : Bool} (hB : B = pre ++ b :: post) :
    ∃ d, Claims.decodeSegments pr (pr.splitTail b post)
        (pr.reading q B.length pre (halvesOf pre ++ [halfLevel b])) = .going d ∧ d.ClosesWith pr q B := by
  induction post generalizing pre b with
  | nil =>
    cases b with
    | true => exact ⟨_, decodeSegments_lastSpace _ _, h.closes_lastOne hs hB⟩
    | false =>
      have half := h.pushHalf_second (q := q) hB
      rw [← hB] at half
      exact ⟨_, Profile.decodeSegments_markPiece hs [] ((Decoding.pushPiece_half hc (.inr rfl) _ _).trans half),
        h.closes_complete hs⟩
  | cons b' post ih =>
    have split : B = (pre ++ [b]) ++ b' :: post := by simp [hB]
    have within : pre.length + 1 < B.length := by simp [hB]
    have second := h.pushHalf_second (q := q) hB
    have first := Profile.pushHalf_first (pr := pr) (q := q) (B := B) (pre := pre ++ [b]) (by simpa using within)
      (halfLevel b')
    obtain ⟨d, decoded, closes⟩ := ih split
    refine ⟨d, ?_, closes⟩
    by_cases same : b' = b
    · subst b'
      rw [Profile.splitTail_same hs,
        Profile.decodeSegments_piece hs (by simp) (by simp; omega)
          ((Decoding.pushPiece_half hc (.inr rfl) _ _).trans second),
        Profile.decodeSegments_piece hs (Profile.splitTail_ne_nil _ _) (by simp; omega)
          ((Decoding.pushPiece_half hc (.inl rfl) _ _).trans first)]
      exact decoded
    · obtain rfl : b' = !b := Bool.eq_not_of_ne same
      rw [Profile.splitTail_other hs,
        Profile.decodeSegments_piece hs (Profile.splitTail_ne_nil _ _) (by simp; omega)
          ((Decoding.pushPiece_joined hc second).trans first)]
      exact decoded

end

end Sys2Proof.Machine

section
open Sys2Proof Sys2Proof.Machine

/-- Settles O51: the first bit decides whether the leader space takes its first half; from there on the decoder takes
each joined segment apart. -/
theorem splitFrameDecodesToItself : Obligations.SplitFrameDecodesToItself := by
  intro pr hs hc _ q address data fixed short
  have sends := Profile.sends_of_mode (address := address) fixed short
  have fields := Profile.fieldsOf_bodyBits pr address data
  cases hB : pr.bodyBits address data with
  | nil => exact absurd hB sends.ne_nil
  | cons b post =>
    rw [hB] at sends fields
    obtain ⟨d, decoded, closes⟩ := sends.decode_splitTail (q := q) hs hc (pre := []) rfl
    cases b with
    | true =>
      have start := sends.start (q := q) (pr.cells pr.leaderSpace)
      rw [Profile.startsWithHalf_leaderSpace, if_neg (by simp)] at start
      refine ⟨_, _, _, d, Profile.frameSegments_split_one hs hB, Profile.acceptsCells_cells,
        Profile.shapeOf_leaderSpace, ?_, closes.winner, closes.shape, closes.closable, closes.bits ▸ fields⟩
      have first := Profile.pushHalf_first (pr := pr) (q := q) (B := true :: post) (pre := []) (by simp) .mark
      rw [start]
      exact (Profile.decodeSegments_markPiece hs _ ((Decoding.pushPiece_half hc (.inl rfl) _ _).trans first)).trans
        decoded
    | false =>
      have start := sends.start (q := q) (pr.cells pr.leaderSpace + pr.firstHalf)
      rw [Profile.startsWithHalf_leaderSpace_half hs hc, if_pos rfl] at start
      refine ⟨_, _, _, d, Profile.frameSegments_split_zero hs hB, Profile.acceptsCells_cells,
        Profile.shapeOf_leaderSpace_half hs hc, ?_, closes.winner, closes.shape, closes.closable, closes.bits ▸ fields⟩
      rw [start]
      exact decoded

end
end

section
/-! PROOFS. PROFILE_SET and PROFILE_GET: reading the fields of a body (R5, R183), the period test (R13), the checks in
their order (R14), and the report (R17, R184). -/

-- The proofs run one after another, for the memory limit of the check.
set_option Elab.async false

namespace Sys2Proof.Machine

/-! ### Numbers and codes -/

theorem byte_toNat (b : Byte) : byte b.toNat = b := by rw [byte, BitVec.ofNat_toNat, BitVec.setWidth_eq]

/-- R181: the two bytes of a field that two bytes spelled. -/
theorem le16_word (a b : Byte) : le16 (a.toNat + 256 * b.toNat) = [a, b] := by
  have ha := a.isLt
  have hb := b.isLt
  have low : byte (a.toNat + 256 * b.toNat) = a := by
    apply BitVec.eq_of_toNat_eq
    simp only [byte, BitVec.toNat_ofNat]
    omega
  have high : (a.toNat + 256 * b.toNat) / 256 = b.toNat := by omega
  rw [le16, low, high, byte_toNat]

/-! Each reading of a field answers one value, where the field is in its range. -/

theorem inRange_reads (low high n m : Nat) : inRange low high n = some m ↔ (low ≤ n ∧ n ≤ high) ∧ n = m := by
  simp [inRange]

theorem carrierOf_reads (n m : Nat) : carrierOf n = some m ↔ (n = 0 ∨ (20 ≤ n ∧ n ≤ 80)) ∧ n = m := by
  simp [carrierOf]

theorem dutyOf_reads (n m : Nat) : dutyOf n = some m ↔ (n = 25 ∨ n = 33 ∨ n = 50) ∧ n = m := by
  simp [dutyOf]

theorem Coding.ofCode_reads (n : Nat) (c : Coding) :
    Coding.ofCode n = some c ↔ n ≤ 2 ∧ (if n = 0 then .pdist else if n = 1 then .pwidth else .split) = c := by
  match n with
  | 0 | 1 | 2 => simp [Coding.ofCode]
  | n + 3 => simp [Coding.ofCode]

theorem LengthMode.ofCode_reads (n : Nat) (m : LengthMode) :
    LengthMode.ofCode n = some m ↔ n ≤ 1 ∧ (if n = 0 then .fixed else .counted) = m := by
  match n with
  | 0 | 1 => simp [LengthMode.ofCode]
  | n + 2 => simp [LengthMode.ofCode]

theorem CheckKind.ofCode_reads (n : Nat) (k : CheckKind) :
    CheckKind.ofCode n = some k ↔ n ≤ 2 ∧ (if n = 0 then .noCheck else if n = 1 then .sum8 else .crc8) = k := by
  match n with
  | 0 | 1 | 2 => simp [CheckKind.ofCode]
  | n + 3 => simp [CheckKind.ofCode]

theorem Form.ofCode_reads (n : Nat) (f : Form) :
    Form.ofCode n = some f ↔ n ≤ 1 ∧ (if n = 0 then .full else .marker) = f := by
  match n with
  | 0 | 1 => simp [Form.ofCode]
  | n + 2 => simp [Form.ofCode]

/-- A reading followed by others answers what they answer for the value read. -/
theorem bind_reads {α β : Type} {o : Option α} {P : Prop} {v : α} (reads : ∀ m, o = some m ↔ P ∧ v = m)
    (f : α → Option β) (y : β) : (o >>= f) = some y ↔ P ∧ f v = some y := by
  rw [Option.bind_eq_bind, Option.bind_eq_some_iff]
  constructor
  · rintro ⟨m, hm, hf⟩
    obtain ⟨hP, rfl⟩ := (reads m).1 hm
    exact ⟨hP, hf⟩
  · rintro ⟨hP, hf⟩
    exact ⟨v, (reads v).2 ⟨hP, rfl⟩, hf⟩

/-! ### The fields of a body -/

/-- R14 check 2: a body reads as a profile when its fields are in range, and as the profile of those fields. -/
theorem profileOfBody_eq_some {body : List Byte} {pr : Profile} :
    profileOfBody body = some pr ↔ Claims.fieldsInRange body ∧ Claims.profileIn body = pr := by
  unfold profileOfBody
  rw [bind_reads (Coding.ofCode_reads _), bind_reads (inRange_reads _ _ _), bind_reads (carrierOf_reads _),
    bind_reads (dutyOf_reads _), bind_reads (inRange_reads _ _ _), bind_reads (inRange_reads _ _ _),
    bind_reads (LengthMode.ofCode_reads _), bind_reads (inRange_reads _ _ _), bind_reads (CheckKind.ofCode_reads _),
    bind_reads (Form.ofCode_reads _), bind_reads (inRange_reads _ _ _), bind_reads (inRange_reads _ _ _),
    bind_reads (inRange_reads _ _ _), bind_reads (inRange_reads _ _ _), bind_reads (inRange_reads _ _ _),
    bind_reads (inRange_reads _ _ _), bind_reads (inRange_reads _ _ _), Option.some.injEq]
  constructor
  · rintro ⟨h2, h3, h5, h6, h7, h8, h9, h10, h11, h12, h13, h14, h16, h18, h19, h20, h21, same⟩
    exact ⟨⟨h2, h3, h5, h6, h7, h8, h9, h10.2, h11, h12, h13, h14, h16, h18, h19, h20, h21⟩, same⟩
  · rintro ⟨⟨h2, h3, h5, h6, h7, h8, h9, h10, h11, h12, h13, h14, h16, h18, h19, h20, h21⟩, same⟩
    exact ⟨h2, h3, h5, h6, h7, h8, h9, ⟨Nat.zero_le _, h10⟩, h11, h12, h13, h14, h16, h18, h19, h20, h21, same⟩

theorem profileOfBody_inRange {body : List Byte} (h : Claims.fieldsInRange body) :
    profileOfBody body = some (Claims.profileIn body) := profileOfBody_eq_some.2 ⟨h, rfl⟩

theorem profileOfBody_outOfRange {body : List Byte} (h : ¬Claims.fieldsInRange body) : profileOfBody body = none :=
  Option.eq_none_iff_forall_ne_some.2 fun _ he => h (profileOfBody_eq_some.1 he).1

/-- R13: B, w and s give the worst-case frame. -/
theorem Profile.longestFrame_eq (pr : Profile) : pr.longestFrame = Claims.worstFrame pr := by
  have counted : pr.counts = true ↔ pr.lengthMode = .counted := by simp [Profile.counts]
  have checked : (if pr.checks then 8 else 0) = if pr.check = .noCheck then 0 else 8 := by
    cases h : pr.check <;> simp [Profile.checks, h]
  simp only [Profile.longestFrame, Profile.longestBody, checked, counted]
  rfl

theorem Profile.passesPeriodTest_iff (pr : Profile) :
    pr.passesPeriodTest = true ↔ (Claims.worstFrame pr + pr.endGap) * pr.cellUs ≤ pr.repeatPeriodMs * 1000 := by
  rw [Profile.passesPeriodTest, decide_eq_true_eq, pr.longestFrame_eq]

/-! ### The report -/

theorem profileFields_length (x : Option Profile) : (profileFields x).length = 20 := by cases x <;> rfl

/-- R17, R184: a profile is reported in the bytes that set it. -/
theorem profileFields_profileIn {sent : List Byte} (length : sent.length = 22) (h : Claims.fieldsInRange sent) :
    profileFields (some (Claims.profileIn sent)) = sent.drop 2 := by
  have coding (n : Nat) (hn : n ≤ 2) :
      (if n = 0 then Coding.pdist else if n = 1 then .pwidth else .split).code = byte n := by
    interval_cases n <;> rfl
  have mode (n : Nat) (hn : n ≤ 1) : (if n = 0 then LengthMode.fixed else .counted).code = byte n := by
    interval_cases n <;> rfl
  have check (n : Nat) (hn : n ≤ 2) :
      (if n = 0 then CheckKind.noCheck else if n = 1 then .sum8 else .crc8).code = byte n := by
    interval_cases n <;> rfl
  have form (n : Nat) (hn : n ≤ 1) : (if n = 0 then Form.full else .marker).code = byte n := by
    interval_cases n <;> rfl
  have field (k : Nat) : byte (Claims.at sent k) = sent.getD k 0 := byte_toNat _
  have word (k : Nat) : le16 (Claims.wordAt sent k) = [sent.getD k 0, sent.getD (k + 1) 0] := le16_word _ _
  obtain ⟨h2, _, _, _, _, _, h9, _, h11, h12, _⟩ := h
  have bytes : profileFields (some (Claims.profileIn sent)) = (List.range 20).map fun k => sent.getD (k + 2) 0 := by
    simp only [profileFields]
    rw [show (Claims.profileIn sent).coding.code = _ from coding _ h2,
      show (Claims.profileIn sent).lengthMode.code = _ from mode _ h9,
      show (Claims.profileIn sent).check.code = _ from check _ h11,
      show (Claims.profileIn sent).repeatForm.code = _ from form _ h12]
    simp only [Claims.profileIn, field, word]
    rfl
  rw [bytes]
  apply List.ext_getElem
  · simp [length]
  · intro k h1 _
    have hk : k + 2 < sent.length := by simp at h1; omega
    simp [hk, Nat.add_comm 2 k]

/-! ### The requests -/

section
variable {s : State} {p : Port} {tag number define : Byte} {fields : List Byte} {q : ProfileId}

/-- R14 check 1. -/
theorem profileSetReply_badValue (h : 3 < number.toNat ∨ 1 < define.toNat) :
    profileSetReply ⟨.profileSet, tag, number :: define :: fields⟩ s = Reply.refuse s .badValue := by
  have none : finOf 4 number.toNat = none ∨ boolOfCode define.toNat = none := by
    obtain h | h := h
    · exact .inl (finOf_ge h)
    · exact .inr (boolOfCode_gt h)
  unfold profileSetReply
  split
  · rename_i hn hd
    obtain none | none := none
    · exact absurd hn (by simp [bodyNat, bodyByte, none])
    · exact absurd hd (by simp [bodyNat, bodyByte, none])
  · rfl

/-- R14: past check 1 the other checks decide. -/
theorem profileSetReply_numbered {define : Byte} (on : Bool) (hd : boolOfCode define.toNat = some on) :
    profileSetReply ⟨.profileSet, tag, BitVec.ofNat 8 q.val :: define :: fields⟩ s =
      profileDefineReply q on (BitVec.ofNat 8 q.val :: define :: fields) s := by
  have number : finOf 4 (bodyNat (BitVec.ofNat 8 q.val :: define :: fields) 0) = some q := finOf_val q (by omega)
  have flag : boolOfCode (bodyNat (BitVec.ofNat 8 q.val :: define :: fields) 1) = some on := hd
  simp only [profileSetReply, number, flag]

variable {body : List Byte} {pr : Profile}

theorem profileDefineReply_outOfRange (h : profileOfBody body = none) :
    profileDefineReply q true body s = Reply.refuse s .badProfile := by
  simp only [profileDefineReply, h, if_true]

/-- R14 check 3. -/
theorem profileDefineReply_tooLong (h : profileOfBody body = some pr) (hp : pr.passesPeriodTest = false) :
    profileDefineReply q true body s = Reply.refuse s .badProfile := by
  simp only [profileDefineReply, h, hp, if_true]

/-- R14 check 4, R15. -/
theorem profileDefineReply_fits (h : profileOfBody body = some pr) (hp : pr.passesPeriodTest = true) :
    profileDefineReply q true body s = if s.inUse q then Reply.refuse s .inUse
      else { status := .ok, body := [], state := s.setProfile q (some pr) } := by
  simp only [profileDefineReply, h, hp, if_true, Bool.true_eq_false, if_false]

theorem profileDefineReply_undefine : profileDefineReply q false body s =
    if s.inUse q then Reply.refuse s .inUse else { status := .ok, body := [], state := s.setProfile q none } := by
  simp only [profileDefineReply, Bool.false_eq_true, if_false]

end

end Sys2Proof.Machine

section
open Sys2Proof Sys2Proof.Machine

/-- Settles O34, check by check in the order of R14. -/
theorem profileRequestsSetAndShow : Obligations.ProfileRequestsSetAndShow := by
  refine ⟨fun s p tag number define fields _ asks => ⟨fun h => ?_, ?_⟩, fun s p tag number asks h => ?_,
    fun s p tag q asks => ?_⟩
  · exact (State.takeRequest_asks _ asks).trans (by rw [profileSetReply_badValue h]; rfl)
  · rintro q rfl
    dsimp only
    have in_use := State.inUse_iff (s := s) (q := q)
    refine ⟨fun hd out => ?_, fun hd within => ⟨fun long => ?_, fun fits => ?_⟩, fun hd => ?_⟩
    · subst hd
      refine (State.takeRequest_asks _ asks).trans ?_
      rw [profileSetReply_numbered true rfl, profileDefineReply_outOfRange (profileOfBody_outOfRange out)]
      rfl
    · subst hd
      refine (State.takeRequest_asks _ asks).trans ?_
      rw [profileSetReply_numbered true rfl, profileDefineReply_tooLong (profileOfBody_inRange within)
        (Bool.eq_false_iff.2 fun passes => by have := (Profile.passesPeriodTest_iff _).1 passes; omega)]
      rfl
    · subst hd
      have reply := (profileSetReply_numbered (tag := tag) (s := s) true rfl).trans
        (profileDefineReply_fits (q := q) (profileOfBody_inRange within) ((Profile.passesPeriodTest_iff _).2 fits))
      refine ⟨fun used => (State.takeRequest_asks _ asks).trans ?_,
        fun unused => (State.takeRequest_asks _ asks).trans ?_⟩
      · rw [reply, if_pos (in_use.2 used)]
        rfl
      · rw [reply, if_neg fun h => unused (in_use.1 h)]
        rfl
    · subst hd
      have reply := (profileSetReply_numbered (q := q) (tag := tag) (s := s) (fields := fields) (define := 0) false
        rfl).trans profileDefineReply_undefine
      refine ⟨fun used => (State.takeRequest_asks _ asks).trans ?_,
        fun unused => (State.takeRequest_asks _ asks).trans ?_⟩
      · rw [reply, if_pos (in_use.2 used)]
        rfl
      · rw [reply, if_neg fun h => unused (in_use.1 h)]
        rfl
  · have none : finOf 4 (bodyNat [number] 0) = none := finOf_ge h
    exact (State.takeRequest_asks _ asks).trans (by simp only [profileGetReply, none]; rfl)
  · intro jobs_using subs_using
    have some_q : finOf 4 (bodyNat [BitVec.ofNat 8 q.val] 0) = some q := finOf_val q (by omega)
    have listened : boolByte (s.listening q) = if (s.profile q).isSome ∧ 0 < subs_using then 1 else 0 := by
      have subs : s.subsUsing q = subs_using := rfl
      simp [boolByte, State.listening, subs]
    refine ⟨profileFields (s.profile q), ?_, profileFields_length _, fun h => by rw [h]; rfl,
      fun sent length within h => by rw [h, profileFields_profileIn length within]⟩
    refine (State.takeRequest_asks _ asks).trans ?_
    simp only [profileGetReply, some_q, State.profileBody, listened]
    rfl

end
end

section
/-! PROOFS. The listening set (R18), and the jobs of a session that closes (R44, R66, R83): what the close at each slot
leaves of its job, of the arbiter, of the transmitter and of the receiver. -/

-- The proofs run one after another, for the memory limit of the check.
set_option Elab.async false

namespace Sys2Proof.Machine

/-! ### The listening set -/

/-- R18: the listening set depends on the profiles and the entries. -/
theorem State.listening_congr {s t : State} (profiles : t.profiles = s.profiles) (entries : t.entries = s.entries)
    (q : ProfileId) : t.listening q = s.listening q := by
  have satisfies (test : Entry → Bool) : t.entrySatisfies test = s.entrySatisfies test := by
    funext e
    simp only [State.entrySatisfies, State.entry, entries]
  have subs : t.subsUsing q = s.subsUsing q := by simp only [State.subsUsing, satisfies]
  have profile : t.profile q = s.profile q := by rw [State.profile, profiles, State.profile]
  rw [State.listening, profile, subs, State.listening]

theorem listeningAgain_congr {s t : State} (h : ∀ q, t.listening q = s.listening q) (d : Decoder) :
    Claims.listeningAgain t d = Claims.listeningAgain s d := by
  unfold Claims.listeningAgain
  split <;> simp only [h]

/-- R18: a change of the listening set moves the decoder, and nothing else. -/
theorem State.reevaluateListening_eq (s : State) :
    s.reevaluateListening = s.setDecoder (Claims.listeningAgain s s.rx.decoder) := by
  have same (d : Decoder) (h : s.rx.decoder = d) : s = s.setDecoder d := by subst h; rfl
  unfold State.reevaluateListening Claims.listeningAgain
  cases h : s.rx.decoder with
  | leaderSpace qs longest => rfl
  | bits d =>
    dsimp only
    split
    · exact same _ h
    · rfl
  | tail own =>
    cases own with
    | none => exact same _ h
    | some x =>
      dsimp only
      split
      · exact same _ h
      · rfl
  | idle | leaderMark | echo => exact same _ h

/-! ### Several slots leave their places -/

section
variable (a : Arbiter) (is : List SlotId)

theorem Arbiter.foldl_without_queues (c : Class) :
    (is.foldl Arbiter.without a).queues[c] = a.queues[c].filter (· ∉ is) := by
  induction is generalizing a with
  | nil => simp
  | cons i is ih =>
    rw [List.foldl_cons, ih, Arbiter.without_queues]
    simp [List.filter_filter, Bool.and_comm]

theorem Arbiter.foldl_without_stack : (is.foldl Arbiter.without a).stack = a.stack.filter (· ∉ is) := by
  induction is generalizing a with
  | nil => simp
  | cons i is ih => simp [ih, List.filter_filter, Bool.and_comm]

theorem Arbiter.foldl_without_backoff : (is.foldl Arbiter.without a).backoff = a.backoff.filter (· ∉ is) := by
  induction is generalizing a with
  | nil => simp
  | cons i is ih => simp [ih, List.filter_filter, Bool.and_comm]

/-- An arbiter whose line position, with its guard and its period, is that of another or is empty. -/
def Arbiter.heldAs (b a : Arbiter) (left : Bool) : Prop :=
  b.position = (if left then .empty else a.position) ∧ b.guard = (if left then none else a.guard) ∧
    b.repeatTimer = (if left then none else a.repeatTimer) ∧ b.periodDone = (if left then false else a.periodDone)

/-- R64: the line position empties when one of the slots stood in it. -/
theorem Arbiter.foldl_without_held :
    (is.foldl Arbiter.without a).heldAs a (a.position.slot.any fun i => decide (i ∈ is)) := by
  induction is generalizing a with
  | nil =>
    have none : (a.position.slot.any fun i => decide (i ∈ ([] : List SlotId))) = false := by simp
    rw [none]
    exact ⟨rfl, rfl, rfl, rfl⟩
  | cons i is ih =>
    have rest := ih (a.without i)
    by_cases here : a.position.slot = some i
    · obtain ⟨position, guard, timer, done⟩ := a.without_held i here
      have left : (a.position.slot.any fun k => decide (k ∈ i :: is)) = true := by simp [here]
      rw [left]
      simpa [Arbiter.heldAs, position, guard, timer, done, LinePosition.slot] using rest
    · obtain ⟨position, guard, timer, done⟩ := a.without_elsewhere i here
      have same : (a.position.slot.any fun k => decide (k ∈ i :: is)) =
          a.position.slot.any fun k => decide (k ∈ is) := by
        cases h : a.position.slot with
        | none => rfl
        | some k =>
          have ne : k ≠ i := fun e => here (by rw [h, e])
          simp [ne]
      rw [same]
      simpa [Arbiter.heldAs, position, guard, timer, done] using rest

end

/-! ### The close at one slot -/

/-- R44, R173: the job ends at a close of port p. -/
def Job.endsAtClose (j : Job) (p : Port) (cut : Bool) : Bool := j.closesWith p && (cut || j.state != .sending)

/-- R174: the job is one of port p's in SENDING, and no orphan. -/
def Job.sendsFor (j : Job) (p : Port) : Bool := j.closesWith p && j.state == .sending

/-- R44: what a close of port p leaves of a job. -/
def Job.afterClose (p : Port) (cut : Bool) (j : Job) : Option Job :=
  if j.endsAtClose p cut then none else some (if j.closesWith p then j.orphaned else j)

section
variable (p : Port) (cut : Bool) (s : State) (i : SlotId)

/-- R44, R66, R83: the four things a close can do at a slot. -/
theorem State.closeJob_cases :
    ((∀ j, s.job i = some j → j.closesWith p = false) ∧ s.closeJob p cut i = s) ∨
      ∃ j, s.job i = some j ∧ j.closesWith p = true ∧
        ((j.state = .sending ∧ cut = true ∧ s.closeJob p cut i = s.stopDrive.dropJob i) ∨
          (j.state = .sending ∧ cut = false ∧ s.closeJob p cut i = s.modifyJob i Job.orphaned) ∨
          (j.state ≠ .sending ∧ s.closeJob p cut i = s.dropJob i)) := by
  unfold State.closeJob
  cases hj : s.job i with
  | none => exact .inl ⟨fun j h => (nomatch h), rfl⟩
  | some j =>
    dsimp only
    by_cases hc : j.closesWith p = true
    · refine .inr ⟨j, rfl, hc, ?_⟩
      rw [if_pos hc]
      by_cases hs : j.state = .sending
      · rw [if_pos hs]
        cases cut with
        | true => exact .inl ⟨hs, rfl, rfl⟩
        | false => exact .inr (.inl ⟨hs, rfl, rfl⟩)
      · rw [if_neg hs]
        exact .inr (.inr ⟨hs, rfl⟩)
    · rw [if_neg hc]
      exact .inl ⟨fun k h => by cases h; simpa using hc, rfl⟩

theorem State.jobSatisfies_eq_false {s : State} {i : SlotId} {test : Job → Bool}
    (h : ∀ j, s.job i = some j → test j = false) : s.jobSatisfies test i = false := by
  rw [Bool.eq_false_iff]
  intro satisfies
  obtain ⟨j, hj, ht⟩ := State.jobSatisfies_eq_true.1 satisfies
  rw [h j hj] at ht
  cases ht

theorem State.closeJob_job (k : SlotId) :
    (s.closeJob p cut i).job k = if k = i then (s.job i).bind (Job.afterClose p cut) else s.job k := by
  obtain ⟨other, new⟩ | ⟨j, hj, hc, ⟨hs, hcut, new⟩ | ⟨hs, hcut, new⟩ | ⟨hs, new⟩⟩ := s.closeJob_cases p cut i
  · rw [new]
    split
    · subst k
      cases hj : s.job i with
      | none => rfl
      | some j => simp [Job.afterClose, Job.endsAtClose, other j hj]
    · rfl
  · rw [new]; simp [State.dropJob, State.freeSlot_job, hj, Job.afterClose, Job.endsAtClose, hc, hcut]
  · rw [new]; simp [State.modifyJob_job, hj, Job.afterClose, Job.endsAtClose, hc, hcut, hs]
  · rw [new]; simp [State.dropJob, State.freeSlot_job, hj, Job.afterClose, Job.endsAtClose, hc, hs]

theorem State.closeJob_la : (s.closeJob p cut i).la =
    if s.jobSatisfies (·.endsAtClose p cut) i then s.la.without i else s.la := by
  obtain ⟨other, new⟩ | ⟨j, hj, hc, ⟨hs, hcut, new⟩ | ⟨hs, hcut, new⟩ | ⟨hs, new⟩⟩ := s.closeJob_cases p cut i
  · have stays : s.jobSatisfies (·.endsAtClose p cut) i = false :=
      State.jobSatisfies_eq_false fun j hj => by simp [Job.endsAtClose, other j hj]
    rw [new, stays]
    rfl
  · rw [new]; simp [State.dropJob, State.jobSatisfies, hj, Job.endsAtClose, hc, hcut]
  · rw [new]; simp [State.jobSatisfies, hj, Job.endsAtClose, hc, hcut, hs]
  · rw [new]; simp [State.dropJob, State.jobSatisfies, hj, Job.endsAtClose, hc, hs]

/-- R83: the drive stops with a job in SENDING that is cut. -/
theorem State.closeJob_drive :
    (s.closeJob p cut i).tx = (if cut && s.jobSatisfies (·.sendsFor p) i then .stopped else s.tx) ∧
      (s.closeJob p cut i).rx = (if cut && s.jobSatisfies (·.sendsFor p) i then s.rx.leaveEcho else s.rx) := by
  obtain ⟨other, new⟩ | ⟨j, hj, hc, ⟨hs, hcut, new⟩ | ⟨hs, hcut, new⟩ | ⟨hs, new⟩⟩ := s.closeJob_cases p cut i
  · have stays : s.jobSatisfies (·.sendsFor p) i = false :=
      State.jobSatisfies_eq_false fun j hj => by simp [Job.sendsFor, other j hj]
    rw [new, stays]
    simp
  · rw [new]; simp [State.dropJob, State.jobSatisfies, hj, Job.sendsFor, hc, hcut, hs]
  · rw [new]; simp [hcut]
  · rw [new]; simp [State.dropJob, State.jobSatisfies, hj, Job.sendsFor, hs]

end

/-! ### The close over the table -/

section
variable (p : Port) (cut : Bool)

/-- What holds of the jobs of other slots holds of them after the close at one. -/
theorem State.closeJob_jobSatisfies_ne {s : State} {i k : SlotId} (h : k ≠ i) (test : Job → Bool) :
    (s.closeJob p cut i).jobSatisfies test k = s.jobSatisfies test k := by
  rw [State.jobSatisfies, State.closeJob_job, if_neg h]
  rfl

theorem State.foldl_closeJob_job {slots : List SlotId} (hn : slots.Nodup) (s : State) (k : SlotId) :
    (slots.foldl (State.closeJob p cut) s).job k =
      if k ∈ slots then (s.job k).bind (Job.afterClose p cut) else s.job k := by
  induction slots generalizing s with
  | nil => rfl
  | cons i slots ih =>
    obtain ⟨fresh, hn⟩ := List.nodup_cons.1 hn
    rw [List.foldl_cons, ih hn, State.closeJob_job]
    by_cases hk : k = i
    · subst k
      simp [fresh]
    · simp [hk]

theorem State.foldl_closeJob_la {slots : List SlotId} (hn : slots.Nodup) (s : State) :
    (slots.foldl (State.closeJob p cut) s).la =
      (slots.filter (s.jobSatisfies (·.endsAtClose p cut))).foldl Arbiter.without s.la := by
  induction slots generalizing s with
  | nil => rfl
  | cons i slots ih =>
    obtain ⟨fresh, hn⟩ := List.nodup_cons.1 hn
    have others : slots.filter ((s.closeJob p cut i).jobSatisfies (·.endsAtClose p cut)) =
        slots.filter (s.jobSatisfies (·.endsAtClose p cut)) :=
      List.filter_congr fun k hk => State.closeJob_jobSatisfies_ne p cut (ne_of_mem_of_not_mem hk fresh) _
    rw [List.foldl_cons, ih hn, others, State.closeJob_la, List.filter_cons]
    split <;> rfl

theorem Receiver.leaveEcho_leaveEcho (r : Receiver) : r.leaveEcho.leaveEcho = r.leaveEcho := rfl

theorem State.foldl_closeJob_drive {slots : List SlotId} (hn : slots.Nodup) (s : State) :
    (slots.foldl (State.closeJob p cut) s).tx =
        (if cut && slots.any (s.jobSatisfies (·.sendsFor p)) then .stopped else s.tx) ∧
      (slots.foldl (State.closeJob p cut) s).rx =
        (if cut && slots.any (s.jobSatisfies (·.sendsFor p)) then s.rx.leaveEcho else s.rx) := by
  induction slots generalizing s with
  | nil => simp
  | cons i slots ih =>
    obtain ⟨fresh, hn⟩ := List.nodup_cons.1 hn
    have others : slots.any ((s.closeJob p cut i).jobSatisfies (·.sendsFor p)) =
        slots.any (s.jobSatisfies (·.sendsFor p)) := by
      rw [Bool.eq_iff_iff]
      simp only [List.any_eq_true]
      refine exists_congr fun k => and_congr_right fun hk => ?_
      rw [State.closeJob_jobSatisfies_ne p cut (ne_of_mem_of_not_mem hk fresh)]
    obtain ⟨tx, rx⟩ := s.closeJob_drive p cut i
    obtain ⟨txs, rxs⟩ := ih hn (s.closeJob p cut i)
    rw [List.foldl_cons, txs, rxs, others, tx, rx, List.any_cons]
    cases cut <;> cases s.jobSatisfies (·.sendsFor p) i <;> simp [Receiver.leaveEcho_leaveEcho]

end

end Sys2Proof.Machine

section
open Sys2Proof Sys2Proof.Machine

/-- Settles O43, state by state of the decoder. -/
theorem departedProfileStopsDecode : Obligations.DepartedProfileStopsDecode := by
  intro s
  refine ⟨fun qs longest h => ?_, fun d h => ?_, fun q gap h => ?_, fun h => ?_, fun q => ?_⟩
  · simp only [State.reevaluateListening, h]
    rfl
  · simp only [State.reevaluateListening, h]
    rfl
  · simp only [State.reevaluateListening, h]
    rfl
  · obtain h | h | h | h := h <;> simp only [State.reevaluateListening, h]
  · rw [State.listening, Bool.and_eq_true, decide_eq_true_eq, State.subsUsing_pos, Option.isSome_iff_ne_none]

end
end

section
/-! PROOFS. CLOSE (R142, R157, R173): after the jobs, the entries, the ring and the port's own record; and the whole of
the request. -/

-- The proofs run one after another, for the memory limit of the check.
set_option Elab.async false

namespace Sys2Proof.Machine

/-! ### The jobs -/

section
variable (s : State) (p : Port) (cut : Bool)

/-- R44: the jobs of port p are closed, before selection runs (R66). -/
def State.closeSlots : State := allSlots.foldl (State.closeJob p cut) s

theorem State.closeJobs_eq : s.closeJobs p cut = (s.closeSlots p cut).selectIfEmpty := by
  unfold State.closeJobs State.closeSlots
  rfl

theorem allSlots_nodup : allSlots.Nodup := List.nodup_finRange 24

theorem mem_allSlots (i : SlotId) : i ∈ allSlots := List.mem_finRange i

/-- R44, R173: whether the job of slot i ends. -/
def State.endsAtClose (i : SlotId) : Bool := s.jobSatisfies (·.endsAtClose p cut) i

theorem State.mem_filter_endsAtClose (i : SlotId) :
    decide (i ∈ allSlots.filter (s.endsAtClose p cut)) = s.endsAtClose p cut i := by
  simp [List.mem_filter, mem_allSlots]

theorem State.closeSlots_la :
    (s.closeSlots p cut).la = (allSlots.filter (s.endsAtClose p cut)).foldl Arbiter.without s.la :=
  State.foldl_closeJob_la p cut allSlots_nodup s

theorem State.closeSlots_queues (c : Class) :
    (s.closeSlots p cut).la.queues[c] = s.la.queues[c].filter fun i => !s.endsAtClose p cut i := by
  rw [State.closeSlots_la, Arbiter.foldl_without_queues]
  simp [mem_allSlots]

theorem State.closeSlots_stack :
    (s.closeSlots p cut).la.stack = s.la.stack.filter fun i => !s.endsAtClose p cut i := by
  rw [State.closeSlots_la, Arbiter.foldl_without_stack]
  simp [mem_allSlots]

theorem State.closeSlots_backoff :
    (s.closeSlots p cut).la.backoff = s.la.backoff.filter fun i => !s.endsAtClose p cut i := by
  rw [State.closeSlots_la, Arbiter.foldl_without_backoff]
  simp [mem_allSlots]

theorem State.closeSlots_held :
    (s.closeSlots p cut).la.heldAs s.la (s.la.position.slot.any (s.endsAtClose p cut)) := by
  have held := Arbiter.foldl_without_held s.la (allSlots.filter (s.endsAtClose p cut))
  simp only [State.mem_filter_endsAtClose] at held
  rw [State.closeSlots_la]
  exact held

theorem State.closeSlots_job (i : SlotId) :
    (s.closeSlots p cut).job i = if s.endsAtClose p cut i then none
      else (s.job i).map fun j => if j.owner = p ∧ j.orphan = false then j.orphaned else j := by
  rw [State.closeSlots, State.foldl_closeJob_job p cut allSlots_nodup, if_pos (mem_allSlots i), State.endsAtClose]
  cases hj : s.job i with
  | none => simp
  | some j => simp [State.jobSatisfies, hj, Job.afterClose, Job.closesWith]

/-- R174: some job of port p is SENDING and no orphan. -/
theorem State.portSending_iff : s.portSending p = true ↔
    ∃ i j, s.job i = some j ∧ j.owner = p ∧ j.orphan = false ∧ j.state = .sending := by
  simp [State.portSending, State.countJobs, allSlots, State.jobSatisfies_eq_true, Job.closesWith, and_assoc]

theorem State.any_sendsFor : allSlots.any (s.jobSatisfies (·.sendsFor p)) = s.portSending p := by
  rw [Bool.eq_iff_iff, State.portSending_iff]
  simp [mem_allSlots, State.jobSatisfies_eq_true, Job.sendsFor, Job.closesWith, and_assoc]

/-- R83, R110: with a job that is cut the drive stops, and the decoder leaves ECHO. -/
theorem State.closeSlots_drive :
    (s.closeSlots p cut).tx = (if cut && s.portSending p then .stopped else s.tx) ∧
      (s.closeSlots p cut).rx = (if cut && s.portSending p then s.rx.leaveEcho else s.rx) := by
  rw [← State.any_sendsFor]
  exact State.foldl_closeJob_drive p cut allSlots_nodup s

theorem State.OnlyArbiter.drive {s t : State} (h : s.OnlyArbiter t) : t.tx = s.tx ∧ t.rx = s.rx := by
  rw [h.rest]
  exact ⟨rfl, rfl⟩

/-- R50: selection touches neither the transmitter nor the receiver. -/
theorem State.closeJobs_drive :
    (s.closeJobs p cut).tx = (s.closeSlots p cut).tx ∧ (s.closeJobs p cut).rx = (s.closeSlots p cut).rx := by
  rw [State.closeJobs_eq]
  exact (State.OnlyArbiter.selectIfEmpty _).drive

/-! ### The rest of the close -/

/-- R157: the frame memory when port p's ring is undefined. -/
def State.memWithoutRing : List Host.Cell :=
  match s.ring p with
  | some r => r.clear r.count s.mem
  | none => s.mem

/-- R142, R173: the part after the close of the jobs, with the entries of port p freed. -/
def State.entriesFreed : State := { s with entries := s.entries.map fun x => x.filter fun e => e.owner != p }

theorem State.replaceRing_none :
    s.replaceRing p none = (({ s with mem := s.memWithoutRing p }).setRing p none).attend p := by
  unfold State.replaceRing State.memWithoutRing
  rfl

theorem State.modifyPort_modifyPort (f g : HostPort → HostPort) :
    (s.modifyPort p f).modifyPort p g = s.modifyPort p (g ∘ f) := by
  simp [State.modifyPort]

/-- R173, R177: the record of port p after its close, with ATTNn low. -/
def HostPort.tornDown (h : HostPort) : HostPort := { h with isOpen := false, notices := [], attn := false }

theorem State.attend_closed_attend :
    ((s.attend p).modifyPort p HostPort.closed).attend p = s.modifyPort p HostPort.tornDown := by
  have low : ((s.attend p).modifyPort p HostPort.closed).attentionDue p = false := by
    simp [State.attentionDue, HostPort.closed]
  rw [State.attend, low, State.attend, State.modifyPort_modifyPort, State.modifyPort_modifyPort]
  rfl

/-- R173: what a close of port p makes of a part whose jobs are closed: the entries and the listening set, the ring with
its records, and the port. -/
theorem State.closeRest_eq :
    (((s.freeEntries p).replaceRing p none).modifyPort p HostPort.closed).attend p = State.modifyPort { s with
      entries := (s.entriesFreed p).entries
      rx := { s.rx with decoder := Claims.listeningAgain (s.entriesFreed p) s.rx.decoder }
      mem := s.memWithoutRing p, rings := s.rings.set p none } p HostPort.tornDown := by
  rw [State.replaceRing_none, State.attend_closed_attend, State.freeEntries, State.reevaluateListening_eq]
  rfl

/-- R173, R174: the whole of an accepted CLOSE. -/
theorem State.closePort_eq {u : State} (hu : s.closeJobs p cut = u) : s.closePort p cut = State.modifyPort { s with
    jobs := u.jobs, la := u.la, tx := u.tx
    rx := { u.rx with decoder := Claims.listeningAgain (s.entriesFreed p) u.rx.decoder }
    entries := (s.entriesFreed p).entries, mem := s.memWithoutRing p, rings := s.rings.set p none } p
      HostPort.tornDown := by
  obtain ⟨jobs, la, tx, rx, same⟩ := State.closeJobs_rest p cut s
  obtain rfl := same.symm.trans hu
  have listening := State.listening_congr (s := s.entriesFreed p)
    (t := State.entriesFreed { s with jobs := jobs, la := la, tx := tx, rx := rx } p) rfl rfl
  rw [State.closePort, same, State.closeRest_eq, listeningAgain_congr listening]
  rfl

/-- R165, R173: the part once an accepted CLOSE is answered. -/
theorem State.closePort_answered {u : State} (hu : s.closeJobs p cut = u) (tag : Byte) (body : List Byte) :
    (s.closePort p cut).answered p .closeSession tag .ok body = { s with
      jobs := u.jobs, la := u.la, tx := u.tx
      rx := { u.rx with decoder := Claims.listeningAgain (s.entriesFreed p) u.rx.decoder }
      entries := (s.entriesFreed p).entries, mem := s.memWithoutRing p, rings := s.rings.set p none
      ports := s.ports.set p { s.port p with
        isOpen := false, notices := [], attn := false, txn := .idle, request := none
        response := some { code := RequestKind.code .closeSession, tag := tag, status := .ok, body := body } } } := by
  rw [State.closePort_eq s p cut hu]
  exact State.modifyPort_modifyPort _ p HostPort.tornDown fun h => { h with
    txn := .idle, request := none
    response := some { code := RequestKind.code .closeSession, tag := tag, status := .ok, body := body } }

/-- R173, R184: what the response of a CLOSE counts. -/
theorem State.closeBody_eq {s : State} {p : Port} {cut : Byte} {sends : Prop} [Decidable (cut = 0 ∧ sends)]
    (within : cut.toNat ≤ 1) (sending : s.portSending p = true ↔ sends) : s.closeBody p (decide (cut = 1)) =
      [byte (allSlots.countP (s.endsAtClose p (decide (cut = 1)))), if cut = 0 ∧ sends then 1 else 0,
        byte (s.port p).notices.length, byte (s.ringCount p)] := by
  have orphaned : boolByte (!decide (cut = 1) && s.portSending p) = if cut = 0 ∧ sends then 1 else 0 := by
    simp only [← sending]
    obtain h | h := Nat.le_one_iff_eq_zero_or_eq_one.1 within
    · obtain rfl : cut = 0 := BitVec.eq_of_toNat_eq h
      simp [boolByte]
    · obtain rfl : cut = 1 := BitVec.eq_of_toNat_eq h
      simp [boolByte]
  rw [State.closeBody, orphaned]
  rfl

/-! ### The frame memory -/

variable {s p} {r : Ring}

theorem State.memWithoutRing_none (h : s.ring p = none) : s.memWithoutRing p = s.mem := by
  rw [State.memWithoutRing, h]

theorem State.memWithoutRing_some (h : s.ring p = some r) : s.memWithoutRing p = r.clear r.count s.mem := by
  rw [State.memWithoutRing, h]

/-- R145, R157: the slots of another port's ring keep their bytes. -/
theorem State.memWithoutRing_other (lawful : s.ringsLawful) {q : Port} (hq : q ≠ p) (hr : s.ring q = some r) {a : Nat}
    (low : 16 * r.base ≤ a) (high : a < 16 * (r.base + r.depth)) :
    Memory.read a (s.memWithoutRing p) = Memory.read a s.mem := by
  obtain ⟨each, apart⟩ := lawful
  cases hp : s.ring p with
  | none => rw [State.memWithoutRing_none hp]
  | some old =>
    rw [State.memWithoutRing_some hp]
    refine Ring.clear_read_ne fun i _ => ?_
    have inside := Ring.slotAt_bounds (each p old hp).1 i
    have disjoint := apart p q old r hq.symm hp hr
    simp only [Ring.touches, decide_eq_false_iff_not] at disjoint
    simp only [slotAddress, Config.slotBytes]
    omega

end

end Sys2Proof.Machine

section
open Sys2Proof Sys2Proof.Machine

/-- Settles O29: u is the part with the jobs of the port closed and selection not yet run, and the rest of the close does
not depend on what selection does. -/
theorem closeTearsDownSession : Obligations.CloseTearsDownSession := by
  intro s p tag cut asks
  refine ⟨fun out => ?_, fun within => ?_⟩
  · have none : boolOfCode (bodyNat [cut] 0) = none := boolOfCode_gt out
    refine (State.takeRequest_asks _ asks).trans ?_
    simp only [closeReply, none]
    rfl
  intro ends sends held outOfEcho
  have flag : boolOfCode (bodyNat [cut] 0) = some (decide (cut = 1)) := boolOfCode_le within
  have run : exec (.closeSession p) s = .next ((s.closePort p (decide (cut = 1))).answered p .closeSession tag .ok
      (s.closeBody p (decide (cut = 1)))) := by
    refine (State.takeRequest_asks _ asks).trans ?_
    simp only [closeReply, flag]
  have cuts : (decide (cut = 1) && s.portSending p) = true ↔ cut = 1 ∧ sends := by
    rw [Bool.and_eq_true, decide_eq_true_eq, State.portSending_iff]
  rw [State.closePort_answered s p _ rfl, State.closeBody_eq within (s.portSending_iff p)] at run
  have keeps := State.KeepsOwned.closeSlots s p (decide (cut = 1)) allSlots
  obtain ⟨position, guard, timer, done⟩ := s.closeSlots_held p (decide (cut = 1))
  have jobs := s.closeSlots_job p (decide (cut = 1))
  have queues := s.closeSlots_queues p (decide (cut = 1))
  have stack := s.closeSlots_stack p (decide (cut = 1))
  have backoff := s.closeSlots_backoff p (decide (cut = 1))
  have closed := s.closeJobs_eq p (decide (cut = 1))
  obtain ⟨tx, rx⟩ := s.closeJobs_drive p (decide (cut = 1))
  rw [(s.closeSlots_drive p (decide (cut = 1))).1] at tx
  rw [(s.closeSlots_drive p (decide (cut = 1))).2] at rx
  change s.KeepsOwned (s.closeSlots p (decide (cut = 1))) at keeps
  generalize s.closeSlots p (decide (cut = 1)) = u at *
  generalize s.closeJobs p (decide (cut = 1)) = w at *
  have selected : w = if u.la.position = .empty then u.select else u := closed
  have listening (t : State) := State.listening_congr (s := s.entriesFreed p) (t := t)
  refine ⟨u, _, run, ?_, ?_, keeps.profiles, keeps.ticket, jobs, queues, stack, backoff, position, guard, timer, done,
    fun e => ?_, ?_, fun q hq => ⟨?_, ?_⟩, ?_, fun hc hs => ?_, fun h => ?_, fun hc hs => ?_, fun h => ?_,
    State.memWithoutRing_none, fun r hr => ⟨State.memWithoutRing_some hr, fun hl hw i hi => ?_, fun a outside => ?_⟩,
    fun lawful q r hq hr a low high => State.memWithoutRing_other lawful hq hr low high,
    rfl, rfl, rfl, rfl, rfl, rfl, ?_⟩
  · rw [← selected]
  · rw [← selected]
  · simp [State.entry, State.entriesFreed]
  · simp [State.ring]
  · simp [State.ring, Fin.val_ne_of_ne hq.symm]
  · simp [State.port, Fin.val_ne_of_ne hq.symm]
  · simp only [State.port, Fin.getElem_fin, Vector.getElem_set_self]
    rfl
  · exact tx.trans (if_pos (cuts.2 ⟨hc, hs⟩))
  · exact tx.trans (if_neg (mt cuts.1 h))
  · rw [if_pos (cuts.2 ⟨hc, hs⟩)] at rx
    rw [listeningAgain_congr (listening _ rfl rfl), rx]
    rfl
  · rw [if_neg (mt cuts.1 h)] at rx
    rw [listeningAgain_congr (listening _ rfl rfl), rx]
    rfl
  · exact (congrArg (Memory.readSlot _) (State.memWithoutRing_some hr)).trans (Ring.clear_readSlot hl hw hi)
  · refine (congrArg (Memory.read a) (State.memWithoutRing_some hr)).trans (Ring.clear_read_ne fun i hi => ?_)
    rw [slotAddress, Config.slotBytes, Nat.mul_comm]
    exact outside i hi
  · rw [rx]
    split <;> rfl

end
end

section
/-! PROOFS. The places of the arbiter (R46), counted for one slot: what each operation of the arbiter leaves of the
places of the others. -/

-- The proofs run one after another, for the memory limit of the check.
set_option Elab.async false

namespace Sys2Proof.Machine

/-! ### The places of a slot -/

/-- R46: how often a slot stands in the arbiter, place by place. -/
theorem Arbiter.places_count (a : Arbiter) (i : SlotId) :
    a.places.count i = (∑ c : Class, a.queues[c].count i) + a.stack.count i + a.backoff.count i +
      (if a.position.slot = some i then 1 else 0) := by
  have position : a.position.slot.toList.count i = if a.position.slot = some i then 1 else 0 := by
    cases a.position.slot with
    | none => rfl
    | some k => simp [List.count_singleton]
  simp only [Arbiter.places, List.count_append, position, Fin.sum_univ_four]
  rfl

theorem Arbiter.queued_pos {a : Arbiter} {i : SlotId} {c : Class} (h : i ∈ a.queues[c]) :
    0 < ∑ c : Class, a.queues[c].count i :=
  Finset.sum_pos' (fun _ _ => Nat.zero_le _) ⟨c, Finset.mem_univ c, List.count_pos_iff.2 h⟩

/-- R46: a slot that stands in one place at most is in the state of the place it is found in. -/
theorem Arbiter.state_of_place {a : Arbiter} {i : SlotId} {c : Class} {st : JobState} (once : a.places.count i ≤ 1)
    (stands : a.standsIn i c st) :
    (∀ q : Class, i ∈ a.queues[q] → st = .queued) ∧ (i ∈ a.stack → st = .suspended) ∧
      (∀ o, a.position = .candidate i o → st = .starting) ∧ (a.position = .holder i → st = .sending ∨ st = .gap) := by
  rw [a.places_count] at once
  have queue {q : Class} (h : i ∈ a.queues[q]) := Arbiter.queued_pos h
  have stack (h : i ∈ a.stack) := List.count_pos_iff.2 h
  have backoff (h : i ∈ a.backoff) := List.count_pos_iff.2 h
  have held (h : a.position.slot = some i) : (if a.position.slot = some i then 1 else 0) = 1 := if_pos h
  have candidate {o} (h : a.position = .candidate i o) := held (by rw [h]; rfl)
  have holder (h : a.position = .holder i) := held (by rw [h]; rfl)
  cases st with
  | queued =>
    have := queue stands
    exact ⟨fun _ _ => rfl, fun h => by have := stack h; omega, fun o h => by have := candidate h; omega,
      fun h => by have := holder h; omega⟩
  | starting =>
    obtain ⟨o, stands⟩ := stands
    have := candidate stands
    exact ⟨fun _ h => by have := queue h; omega, fun h => by have := stack h; omega, fun _ _ => rfl,
      fun h => absurd (stands.symm.trans h) (by simp)⟩
  | sending | gap =>
    have stands : a.position = .holder i := stands
    have := holder stands
    exact ⟨fun _ h => by have := queue h; omega, fun h => by have := stack h; omega,
      fun o h => absurd (stands.symm.trans h) (by simp), fun _ => by simp⟩
  | suspended =>
    have := stack stands
    exact ⟨fun _ h => by have := queue h; omega, fun _ => rfl, fun o h => by have := candidate h; omega,
      fun h => by have := holder h; omega⟩
  | backoff =>
    have := backoff stands
    exact ⟨fun _ h => by have := queue h; omega, fun h => by have := stack h; omega,
      fun o h => by have := candidate h; omega, fun h => by have := holder h; omega⟩

/-- R46: b has slot k where a has it. -/
structure Arbiter.SameFor (a b : Arbiter) (k : SlotId) : Prop where
  queues   : ∀ c : Class, b.queues[c].count k = a.queues[c].count k
  stack    : b.stack.count k = a.stack.count k
  backoff  : b.backoff.count k = a.backoff.count k
  position : b.position = a.position ∨ (a.position.slot ≠ some k ∧ b.position.slot ≠ some k)

namespace Arbiter.SameFor
variable {a b c : Arbiter} {i k : SlotId}

theorem of_places (queues : b.queues = a.queues) (stack : b.stack = a.stack) (backoff : b.backoff = a.backoff)
    (position : b.position = a.position) : a.SameFor b k :=
  ⟨fun _ => by rw [queues], by rw [stack], by rw [backoff], .inl position⟩

theorem refl (a : Arbiter) (k : SlotId) : a.SameFor a k := of_places rfl rfl rfl rfl

theorem trans (h : a.SameFor b k) (h' : b.SameFor c k) : a.SameFor c k where
  queues := fun q => (h'.queues q).trans (h.queues q)
  stack := h'.stack.trans h.stack
  backoff := h'.backoff.trans h.backoff
  position := by
    obtain same | ⟨left, right⟩ := h.position
    · rw [← same]; exact h'.position
    · obtain same' | ⟨_, right'⟩ := h'.position
      · exact .inr ⟨left, same' ▸ right⟩
      · exact .inr ⟨left, right'⟩

theorem count (h : a.SameFor b k) : b.places.count k = a.places.count k := by
  have position : (if b.position.slot = some k then 1 else 0) = if a.position.slot = some k then 1 else 0 := by
    obtain same | ⟨left, right⟩ := h.position
    · rw [same]
    · rw [if_neg left, if_neg right]
  simp only [Arbiter.places_count, h.queues, h.stack, h.backoff, position]

theorem candidate (h : a.SameFor b k) (o : Origin) : b.position = .candidate k o ↔ a.position = .candidate k o := by
  obtain same | ⟨left, right⟩ := h.position
  · rw [same]
  · exact ⟨fun e => absurd (by rw [e]; rfl) right, fun e => absurd (by rw [e]; rfl) left⟩

theorem holder (h : a.SameFor b k) : b.position = .holder k ↔ a.position = .holder k := by
  obtain same | ⟨left, right⟩ := h.position
  · rw [same]
  · exact ⟨fun e => absurd (by rw [e]; rfl) right, fun e => absurd (by rw [e]; rfl) left⟩

theorem standsIn (h : a.SameFor b k) (q : Class) (st : JobState) : b.standsIn k q st ↔ a.standsIn k q st := by
  cases st with
  | queued => simp only [Arbiter.standsIn, ← List.count_pos_iff, h.queues]
  | starting => exact exists_congr h.candidate
  | sending | gap => exact h.holder
  | suspended => simp only [Arbiter.standsIn, ← List.count_pos_iff, h.stack]
  | backoff => simp only [Arbiter.standsIn, ← List.count_pos_iff, h.backoff]

/-- R63, R64: what leaves its place leaves the others in theirs. -/
theorem without (a : Arbiter) (hk : k ≠ i) : a.SameFor (a.without i) k where
  queues := fun q => by rw [Arbiter.without_queues, List.count_filter (by simpa using hk)]
  stack := by rw [Arbiter.without_stack, List.count_filter (by simpa using hk)]
  backoff := by rw [Arbiter.without_backoff, List.count_filter (by simpa using hk)]
  position := by
    by_cases held : a.position.slot = some i
    · refine .inr ⟨fun h => hk ?_, ?_⟩
      · rw [h] at held; exact Option.some.inj held
      · rw [(a.without_held i held).1]; simp [LinePosition.slot]
    · exact .inl (a.without_elsewhere i held).1

/-- R47: joining a queue, at whichever end. -/
theorem joinQueue (a : Arbiter) (q : Class) {l : List SlotId} (hl : l.count k = a.queues[q].count k) :
    a.SameFor { a with queues := a.queues.set q l } k where
  queues := fun c => by
    by_cases h : q.val = c.val
    · have := Fin.ext h; subst this; simpa using hl
    · simp [Fin.getElem_fin, h]
  stack := rfl
  backoff := rfl
  position := .inl rfl

theorem pushStack (a : Arbiter) (hk : k ≠ i) : a.SameFor (a.pushStack i) k where
  queues := fun _ => rfl
  stack := by simp [Arbiter.pushStack, hk.symm]
  backoff := rfl
  position := .inl rfl

/-- R65: the backoff set is a set: it holds the others once, as it did. -/
theorem pushBackoff {a : Arbiter} (hk : k ≠ i) (once : a.backoff.count k ≤ 1) : a.SameFor (a.pushBackoff i) k where
  queues := fun _ => rfl
  stack := rfl
  backoff := by
    by_cases member : k ∈ a.backoff
    · have : 0 < a.backoff.count k := List.count_pos_iff.2 member
      have : (a.pushBackoff i).backoff.count k = 1 := by
        rw [Arbiter.pushBackoff, List.count_filter (by simp [member])]
        exact List.count_eq_one_of_mem allSlots_nodup (mem_allSlots k)
      omega
    · rw [List.count_eq_zero_of_not_mem member, List.count_eq_zero]
      simp [Arbiter.pushBackoff, hk, member]
  position := .inl rfl

end Arbiter.SameFor

/-- R46: a slot that has left its place stands in none. -/
theorem Arbiter.without_count (a : Arbiter) (i : SlotId) : (a.without i).places.count i = 0 := by
  have position : (a.without i).position.slot ≠ some i := by
    by_cases held : a.position.slot = some i
    · rw [(a.without_held i held).1]; simp [LinePosition.slot]
    · rwa [(a.without_elsewhere i held).1]
  have filtered (l : List SlotId) : (l.filter (· ≠ i)).count i = 0 := List.count_eq_zero.2 (by simp)
  simp only [Arbiter.places_count, Arbiter.without_queues, Arbiter.without_stack, Arbiter.without_backoff, filtered,
    if_neg position, Finset.sum_const_zero]

/-- R64: a slot that leaves an empty line position, or the line position itself, leaves it empty. -/
theorem Arbiter.without_empty {a : Arbiter} {i : SlotId} (h : ∀ k ∈ a.position.slot, k = i) :
    (a.without i).position = .empty := by
  by_cases held : a.position.slot = some i
  · exact (a.without_held i held).1
  · rw [(a.without_elsewhere i held).1]
    cases hp : a.position with
    | empty => rfl
    | candidate k o => exact absurd (by rw [hp, h k (by rw [hp]; rfl)]; rfl) held
    | holder k => exact absurd (by rw [hp, h k (by rw [hp]; rfl)]; rfl) held

end Sys2Proof.Machine
end

section
/-! PROOFS. The law of the jobs' places slot by slot (R22, R23, R39, R46, R49, R68), and the two ways in which one
slot is between two states that obey it: its drive is over, or it stands in no place. -/

-- The proofs run one after another, for the memory limit of the check.
set_option Elab.async false

namespace Sys2Proof.Machine

/-! ### Entering a place -/

/-- R46: a slot in the place of a state stands somewhere. -/
theorem Arbiter.count_pos_of_standsIn {a : Arbiter} {i : SlotId} {c : Class} {st : JobState}
    (stands : a.standsIn i c st) : 0 < a.places.count i := by
  rw [a.places_count]
  cases st with
  | queued => have := Arbiter.queued_pos stands; omega
  | starting =>
    obtain ⟨o, stands⟩ := stands
    have held : a.position.slot = some i := by rw [stands]; rfl
    rw [if_pos held]
    omega
  | sending | gap =>
    have held : a.position.slot = some i := by rw [show a.position = .holder i from stands]; rfl
    rw [if_pos held]
    omega
  | suspended => have := List.count_pos_iff.2 (show i ∈ a.stack from stands); omega
  | backoff => have := List.count_pos_iff.2 (show i ∈ a.backoff from stands); omega

section
variable (a : Arbiter) (i : SlotId)

/-- R47: a join of a queue, at whichever end, adds one place. -/
theorem Arbiter.joinQueue_count (q : Class) {l : List SlotId} (hl : l.count i = a.queues[q].count i + 1) :
    (Arbiter.places { a with queues := a.queues.set q l }).count i = a.places.count i + 1 := by
  have queue (c : Class) : (a.queues.set q l)[c].count i = a.queues[c].count i + if c = q then 1 else 0 := by
    by_cases h : q = c
    · subst c; simpa using hl
    · simp [Fin.getElem_fin, Fin.val_ne_of_ne h, Ne.symm h]
  simp only [Arbiter.places_count, queue, Finset.sum_add_distrib, Finset.sum_ite_eq', Finset.mem_univ, if_true]
  omega

theorem Arbiter.pushStack_count : (a.pushStack i).places.count i = a.places.count i + 1 := by
  simp only [Arbiter.places_count, Arbiter.pushStack, List.count_append, List.count_singleton_self]
  omega

theorem Arbiter.mem_pushBackoff : i ∈ (a.pushBackoff i).backoff := by
  simp [Arbiter.pushBackoff, mem_allSlots]

variable {a i}

theorem Arbiter.pushBackoff_count (out : a.places.count i = 0) : (a.pushBackoff i).places.count i = 1 := by
  have once : (a.pushBackoff i).backoff.count i = 1 :=
    List.count_eq_one_of_mem (List.Nodup.filter _ allSlots_nodup) (a.mem_pushBackoff i)
  rw [Arbiter.places_count] at out ⊢
  rw [once]
  change (∑ c : Class, a.queues[c].count i) + a.stack.count i + 1 + (if a.position.slot = some i then 1 else 0) = 1
  omega

theorem Arbiter.candidate_count {o : Origin} {guard : Option GuardCount} {timer : Timer} {done : Bool}
    (out : a.places.count i = 0) : (Arbiter.places { a with
      position := .candidate i o, guard := guard, repeatTimer := timer, periodDone := done }).count i = 1 := by
  rw [Arbiter.places_count] at out ⊢
  simp only [LinePosition.slot, if_true]
  omega

end

/-! ### The law of one slot -/

/-- R68: the transmission in flight is that of slot i. -/
def State.driven (s : State) (i : SlotId) : Prop := ∃ d, s.tx.drive = some d ∧ d.slot = i

/-- R22, R23, R39, R46, R49 for one slot: it stands in one place, that of its job's state, or in none where it is
FREE; a job that has not started is in its queue or came from it to the line position, and it alone has a running
deadline. -/
structure State.SlotPlaced (s : State) (i : SlotId) : Prop where
  once     : s.la.places.count i = if (s.job i).isSome then 1 else 0
  stands   : ∀ j, s.job i = some j → s.la.standsIn i j.cls j.state
  starts   : ∀ j, s.job i = some j → j.started = false → j.state = .queued ∨ s.la.position = .candidate i .queue
  deadline : ∀ j, s.job i = some j → j.deadlineTimer.isSome = true → j.started = false

/-- R68 with it: TX drives the slot exactly while its job is SENDING. -/
structure State.SlotLawful (s : State) (i : SlotId) : Prop where
  placed : s.SlotPlaced i
  drives : s.jobIn i .sending = true ↔ s.driven i

theorem State.jobIn_iff {s : State} {i : SlotId} {st : JobState} :
    s.jobIn i st = true ↔ ∃ j, s.job i = some j ∧ j.state = st := by
  simp only [State.jobIn, State.jobSatisfies_eq_true, beq_iff_eq]

/-- The law of the places holds of the part when it holds of every slot. -/
theorem State.arbiterLawful_iff {s : State} : s.arbiterLawful ↔ ∀ i, s.SlotLawful i := by
  constructor
  · rintro ⟨⟨nodup, live, stands⟩, drives, starts, deadlines⟩ i
    refine ⟨⟨?_, stands i, starts i, deadlines i⟩, drives i⟩
    cases hj : s.job i with
    | none =>
      have free : i ∉ s.la.places := fun h => by simpa [hj] using live i h
      simpa [List.count_eq_zero] using free
    | some j =>
      have pos := Arbiter.count_pos_of_standsIn (stands i j hj)
      exact List.count_eq_one_of_mem nodup (List.count_pos_iff.1 pos)
  · intro h
    refine ⟨⟨List.nodup_iff_count_le_one.2 fun i => ?_, fun i hi => ?_, fun i => (h i).placed.stands⟩,
      fun i => (h i).drives, fun i => (h i).placed.starts, fun i => (h i).placed.deadline⟩
    · rw [(h i).placed.once]
      split <;> omega
    · by_contra free
      have := List.count_pos_iff.2 hi
      rw [(h i).placed.once, if_neg free] at this
      omega

theorem State.SlotPlaced.count_le {s : State} {i : SlotId} (h : s.SlotPlaced i) : s.la.places.count i ≤ 1 := by
  rw [h.once]
  split <;> omega

/-- R46: what stands in a place is a job. -/
theorem State.SlotPlaced.live {s : State} {i : SlotId} (h : s.SlotPlaced i) (pos : 0 < s.la.places.count i) :
    ∃ j, s.job i = some j := by
  rw [h.once] at pos
  split at pos
  · exact Option.isSome_iff_exists.1 ‹_›
  · omega

/-- R23: a waiting job is QUEUED, a suspended one SUSPENDED, the candidate STARTING, and the holder SENDING or in GAP.
-/
theorem State.SlotPlaced.found {s : State} {i : SlotId} (h : s.SlotPlaced i) :
    (∀ q : Class, i ∈ s.la.queues[q] → ∃ j, s.job i = some j ∧ j.state = .queued) ∧
      (i ∈ s.la.stack → ∃ j, s.job i = some j ∧ j.state = .suspended) ∧
      (∀ o, s.la.position = .candidate i o → ∃ j, s.job i = some j ∧ j.state = .starting) ∧
      (s.la.position = .holder i → ∃ j, s.job i = some j ∧ (j.state = .sending ∨ j.state = .gap)) := by
  have job {c : Class} {st : JobState} (there : s.la.standsIn i c st) :
      ∃ j, s.job i = some j ∧ s.la.standsIn i j.cls j.state := by
    obtain ⟨j, hj⟩ := h.live (Arbiter.count_pos_of_standsIn there)
    exact ⟨j, hj, h.stands j hj⟩
  refine ⟨fun q hq => ?_, fun hs => ?_, fun o hp => ?_, fun hp => ?_⟩
  · obtain ⟨j, hj, stands⟩ := job (c := q) (st := .queued) hq
    exact ⟨j, hj, (Arbiter.state_of_place h.count_le stands).1 q hq⟩
  · obtain ⟨j, hj, stands⟩ := job (c := 0) (st := .suspended) hs
    exact ⟨j, hj, (Arbiter.state_of_place h.count_le stands).2.1 hs⟩
  · obtain ⟨j, hj, stands⟩ := job (c := 0) (st := .starting) ⟨o, hp⟩
    exact ⟨j, hj, (Arbiter.state_of_place h.count_le stands).2.2.1 o hp⟩
  · obtain ⟨j, hj, stands⟩ := job (c := 0) (st := .gap) hp
    exact ⟨j, hj, (Arbiter.state_of_place h.count_le stands).2.2.2 hp⟩

/-- R22, R24: a job that is neither waiting in its queue nor a candidate from it has started. -/
theorem State.SlotPlaced.started {s : State} {i : SlotId} {j : Job} (h : s.SlotPlaced i) (hj : s.job i = some j)
    (state : j.state ≠ .queued) (position : s.la.position ≠ .candidate i .queue) : j.started = true := by
  by_contra fresh
  obtain queued | candidate := h.starts j hj (by simpa using fresh)
  · exact state queued
  · exact position candidate

/-! ### What leaves a slot's law -/

/-- What the law of a slot asks of its job: class, state, whether it has started, and whether its deadline runs. -/
def Job.stage (j : Job) : Class × JobState × Bool × Bool := (j.cls, j.state, j.started, j.deadlineTimer.isSome)

theorem Job.stage_eq {j j' : Job} : j'.stage = j.stage ↔ j'.cls = j.cls ∧ j'.state = j.state ∧
    j'.started = j.started ∧ j'.deadlineTimer.isSome = j.deadlineTimer.isSome := by
  simp [Job.stage]

/-- Slot k is in t at the stage and in the place where s has it, and driven as there. -/
structure State.SameSlot (s t : State) (k : SlotId) : Prop where
  job   : (t.job k).map Job.stage = (s.job k).map Job.stage
  place : s.la.SameFor t.la k
  drive : t.driven k ↔ s.driven k

namespace State.SameSlot
variable {s t u : State} {i k : SlotId}

theorem trans (h : s.SameSlot t k) (h' : t.SameSlot u k) : s.SameSlot u k :=
  ⟨h'.job.trans h.job, h.place.trans h'.place, h'.drive.trans h.drive⟩

/-- A change that leaves the job of the slot, its place and the drive. -/
theorem of_rest (job : t.job k = s.job k) (place : s.la.SameFor t.la k) (tx : t.tx = s.tx) : s.SameSlot t k :=
  ⟨by rw [job], place, by simp only [State.driven, tx]⟩

/-- A change of other blocks. -/
theorem of_blocks (jobs : t.jobs = s.jobs) (la : t.la = s.la) (tx : t.tx = s.tx) : s.SameSlot t k :=
  of_rest (by simp only [State.job, jobs]) (by rw [la]; exact .refl _ _) tx

theorem modifyJob_ne (s : State) (f : Job → Job) (hk : k ≠ i) : s.SameSlot (s.modifyJob i f) k :=
  of_rest (s.modifyJob_job_ne i k f hk) (.refl _ _) rfl

/-- A change of a job that leaves its stage. -/
theorem modifyJob (s : State) (i k : SlotId) {f : Job → Job} (hf : ∀ j, (f j).stage = j.stage := by intro _; rfl) :
    s.SameSlot (s.modifyJob i f) k := by
  by_cases hk : k = i
  · subst k
    refine ⟨?_, .refl _ _, .rfl⟩
    rw [State.modifyJob_job_self, Option.map_map]
    exact congrArg (Option.map · _) (funext hf)
  · exact modifyJob_ne s f hk

theorem freeSlot (s : State) (hk : k ≠ i) : s.SameSlot (s.freeSlot i) k :=
  of_rest (s.freeSlot_job_ne i k hk) (.refl _ _) rfl

theorem fillSlot (s : State) (j : Job) (hk : k ≠ i) : s.SameSlot (s.fillSlot i j) k :=
  of_rest (s.fillSlot_job_ne i k j hk) (.refl _ _) rfl

theorem vacate (s : State) (hk : k ≠ i) : s.SameSlot (s.vacate i) k := of_rest rfl (.without _ hk) rfl

theorem startGuard (s : State) (i k : SlotId) : s.SameSlot (s.startGuard i) k :=
  of_rest rfl (.of_places rfl rfl rfl rfl) rfl

theorem notify (s : State) (i : SlotId) (o : JobOutcome) (k : SlotId) : s.SameSlot (s.notify i o) k := by
  obtain ⟨rest, _⟩ := s.notify_rest i o
  exact of_blocks (by rw [rest]) (by rw [rest]) (by rw [rest])

theorem receives (h : s.OnlyReceives t) (k : SlotId) : s.SameSlot t k :=
  of_blocks (by rw [h.rest]) (by rw [h.rest]) (by rw [h.rest])

end State.SameSlot

section
variable {s t : State} {k : SlotId}

theorem State.SlotPlaced.congr (h : s.SlotPlaced k) (job : (t.job k).map Job.stage = (s.job k).map Job.stage)
    (place : s.la.SameFor t.la k) : t.SlotPlaced k := by
  have before {j' : Job} (hj' : t.job k = some j') : ∃ j, s.job k = some j ∧ j'.stage = j.stage := by
    rw [hj', Option.map_some] at job
    obtain ⟨j, hj, same⟩ := Option.map_eq_some_iff.1 job.symm
    exact ⟨j, hj, same.symm⟩
  refine ⟨?_, fun j' hj' => ?_, fun j' hj' fresh => ?_, fun j' hj' runs => ?_⟩
  · have isSome : (t.job k).isSome = (s.job k).isSome := by simpa using congrArg Option.isSome job
    rw [place.count, h.once, isSome]
  all_goals
    obtain ⟨j, hj, same⟩ := before hj'
    obtain ⟨cls, state, started, deadline⟩ := Job.stage_eq.1 same
  · rw [cls, state]
    exact (place.standsIn _ _).2 (h.stands j hj)
  · rw [state, place.candidate]
    exact h.starts j hj (started ▸ fresh)
  · rw [started]
    exact h.deadline j hj (deadline ▸ runs)

theorem State.SlotLawful.congr (h : s.SlotLawful k) (same : s.SameSlot t k) : t.SlotLawful k := by
  refine ⟨h.placed.congr same.job same.place, ?_⟩
  have sending (u : State) : u.jobIn k .sending = ((u.job k).map Job.stage).any fun x => x.2.1 == .sending := by
    simp only [State.jobIn, State.jobSatisfies, Option.any_map]
    rfl
  rw [sending, same.job, ← sending, same.drive]
  exact h.drives

theorem State.arbiterLawful.congr (h : s.arbiterLawful) (same : ∀ k, s.SameSlot t k) : t.arbiterLawful :=
  State.arbiterLawful_iff.2 fun k => (State.arbiterLawful_iff.1 h k).congr (same k)

end

/-! ### A slot away from the drive, and a slot out of its place -/

/-- The part is lawful, but for slot i, whose job is in its place and may be SENDING while the drive is not its. -/
structure State.QuietAt (s : State) (i : SlotId) : Prop where
  others   : ∀ k, k ≠ i → s.SlotLawful k
  placed   : s.SlotPlaced i
  undriven : ¬s.driven i

/-- The part is lawful, but for slot i, which stands in no place, whatever its job's state. -/
structure State.Lifted (s : State) (i : SlotId) : Prop where
  others   : ∀ k, k ≠ i → s.SlotLawful k
  out      : s.la.places.count i = 0
  undriven : ¬s.driven i
  deadline : ∀ j, s.job i = some j → j.deadlineTimer.isSome = true → j.started = false

section
variable {s t : State} {i : SlotId}

theorem State.arbiterLawful.quietAt (h : s.arbiterLawful) (quiet : ∀ j, s.job i = some j → j.state ≠ .sending) :
    s.QuietAt i := by
  have lawful := State.arbiterLawful_iff.1 h
  refine ⟨fun k _ => lawful k, (lawful i).placed, fun driven => ?_⟩
  obtain ⟨j, hj, sending⟩ := State.jobIn_iff.1 ((lawful i).drives.2 driven)
  exact quiet j hj sending

theorem State.QuietAt.arbiterLawful (h : s.QuietAt i) (quiet : ∀ j, s.job i = some j → j.state ≠ .sending) :
    s.arbiterLawful := by
  refine State.arbiterLawful_iff.2 fun k => ?_
  by_cases hk : k = i
  · subst k
    refine ⟨h.placed, fun sending => ?_, fun driven => absurd driven h.undriven⟩
    obtain ⟨j, hj, sending⟩ := State.jobIn_iff.1 sending
    exact absurd sending (quiet j hj)
  · exact h.others k hk

theorem State.QuietAt.congr (h : s.QuietAt i) (same : ∀ k, s.SameSlot t k) : t.QuietAt i :=
  ⟨fun k hk => (h.others k hk).congr (same k), h.placed.congr (same i).job (same i).place,
    fun driven => h.undriven ((same i).drive.1 driven)⟩

/-- R73, R78, R83: the drive stops. -/
theorem State.arbiterLawful.stopDrive (h : s.arbiterLawful) (driven : s.driven i) : s.stopDrive.QuietAt i := by
  have lawful := State.arbiterLawful_iff.1 h
  have stopped (k : SlotId) : ¬s.stopDrive.driven k := by rintro ⟨d, hd, _⟩; cases hd
  have placed (k : SlotId) : s.stopDrive.SlotPlaced k := (lawful k).placed.congr rfl (.refl _ _)
  refine ⟨fun k hk => ⟨placed k, fun sending => absurd ((lawful k).drives.1 sending) ?_,
    fun driven => absurd driven (stopped k)⟩, placed i, stopped i⟩
  rintro ⟨d, hd, rfl⟩
  obtain ⟨d', hd', rfl⟩ := driven
  exact hk (by rw [Option.some.inj (hd.symm.trans hd')])

/-- R63, R64: a job leaves its place. -/
theorem State.QuietAt.vacate (h : s.QuietAt i) : (s.vacate i).Lifted i where
  others := fun k hk => (h.others k hk).congr (.vacate s hk)
  out := s.la.without_count i
  undriven := h.undriven
  deadline := h.placed.deadline

/-- R88: the slot becomes FREE. -/
theorem State.Lifted.freeSlot (h : s.Lifted i) : (s.freeSlot i).arbiterLawful := by
  refine State.arbiterLawful_iff.2 fun k => ?_
  by_cases hk : k = i
  · rw [hk]
    have free : (s.freeSlot i).job i = none := s.freeSlot_job_self i
    refine ⟨⟨?_, fun j hj => (nomatch free.symm.trans hj), fun j hj => (nomatch free.symm.trans hj),
      fun j hj => (nomatch free.symm.trans hj)⟩, fun sending => ?_, fun driven => absurd driven h.undriven⟩
    · rw [free]; exact h.out
    · obtain ⟨j, hj, _⟩ := State.jobIn_iff.1 sending
      cases free.symm.trans hj
  · exact (h.others k hk).congr (.freeSlot s hk)

theorem State.QuietAt.dropJob (h : s.QuietAt i) : (s.dropJob i).arbiterLawful := h.vacate.freeSlot

/-- R21: a FREE slot takes a job without a place yet. -/
theorem State.arbiterLawful.fillSlot (h : s.arbiterLawful) (free : s.job i = none) (j : Job)
    (deadline : j.deadlineTimer.isSome = true → j.started = false) : (s.fillSlot i j).Lifted i := by
  have lawful := State.arbiterLawful_iff.1 h
  refine ⟨fun k hk => (lawful k).congr (.fillSlot s j hk), ?_, fun driven => ?_, fun k hk => ?_⟩
  · have once := (lawful i).placed.once
    rwa [free] at once
  · obtain ⟨j, hj, _⟩ := State.jobIn_iff.1 ((lawful i).drives.2 driven)
    rw [free] at hj
    cases hj
  · rw [State.fillSlot_job_self] at hk
    cases hk
    exact deadline

/-- R46: a job that stands in no place comes to stand in the one of its state, with the arbiter a and the record f
makes of it. -/
theorem State.Lifted.land {j : Job} {a : Arbiter} {f : Job → Job} (h : s.Lifted i) (hj : s.job i = some j)
    (others : ∀ k, k ≠ i → s.la.SameFor a k) (once : a.places.count i = 1)
    (stands : a.standsIn i (f j).cls (f j).state)
    (starts : (f j).started = false → (f j).state = .queued ∨ a.position = .candidate i .queue)
    (deadline : (f j).deadlineTimer.isSome = true → (f j).started = false) (quiet : (f j).state ≠ .sending) :
    (State.modifyJob { s with la := a } i f).arbiterLawful := by
  have lands : (State.modifyJob { s with la := a } i f).job i = some (f j) := by
    rw [State.modifyJob_job_self]
    exact congrArg (Option.map f) hj
  refine State.arbiterLawful_iff.2 fun k => ?_
  by_cases hk : k = i
  · subst k
    refine ⟨⟨?_, ?_, ?_, ?_⟩, ?_⟩
    · rw [lands]; exact once
    · intro j' hj'; cases lands.symm.trans hj'; exact stands
    · intro j' hj'; cases lands.symm.trans hj'; exact starts
    · intro j' hj'; cases lands.symm.trans hj'; exact deadline
    · refine ⟨fun sending => ?_, fun driven => absurd driven h.undriven⟩
      obtain ⟨j', hj', sending⟩ := State.jobIn_iff.1 sending
      cases lands.symm.trans hj'
      exact absurd sending quiet
  · have placed : s.SameSlot { s with la := a } k := .of_rest rfl (others k hk) rfl
    exact (h.others k hk).congr (placed.trans (.modifyJob_ne _ f hk))

end

end Sys2Proof.Machine
end

section
/-! PROOFS. What the arbiter's operations, frame starts, frame ends, collisions and closes keep of the law that a job
stands in the place of its state. -/

-- The proofs run one after another, for the memory limit of the check.
set_option Elab.async false

namespace Sys2Proof.Machine

variable {s t : State} {i : SlotId} {j : Job}

/-! ### Leaving and entering a place -/

theorem State.jobClass_of_job (hj : s.job i = some j) : s.jobClass i = j.cls := by simp [State.jobClass, hj]

/-- A job out of its place is changed. -/
theorem State.Lifted.modifyJob {f : Job → Job} (h : s.Lifted i)
    (deadline : ∀ j, s.job i = some j → (f j).deadlineTimer.isSome = true → (f j).started = false) :
    (s.modifyJob i f).Lifted i where
  others := fun k hk => (h.others k hk).congr (.modifyJob_ne s f hk)
  out := h.out
  undriven := h.undriven
  deadline := fun j' hj' => by
    rw [State.modifyJob_job_self] at hj'
    obtain ⟨j, hj, rfl⟩ := Option.map_eq_some_iff.1 hj'
    exact deadline j hj

/-- R47: a job joins the queue of its class, at whichever end. -/
theorem State.Lifted.enqueue (h : s.Lifted i) (hj : s.job i = some j) {l : List SlotId} (mem : i ∈ l)
    (once : l.count i = s.la.queues[j.cls].count i + 1) (others : ∀ k, k ≠ i → l.count k = s.la.queues[j.cls].count k) :
    (State.modifyJob { s with la := { s.la with queues := s.la.queues.set j.cls l } } i
      fun x => { x with state := .queued }).arbiterLawful := by
  refine h.land hj (fun k hk => .joinQueue s.la j.cls (others k hk)) ?_ ?_ (fun _ => .inl rfl) (h.deadline j hj)
    (by simp)
  · rw [Arbiter.joinQueue_count s.la i j.cls once, h.out]
  · simpa [Arbiter.standsIn] using mem

/-- R48: a started job is pushed on the stack. -/
theorem State.Lifted.suspend (h : s.Lifted i) (hj : s.job i = some j) (started : j.started = true) {f : Job → Job}
    (state : (f j).state = .suspended) (kept : (f j).started = j.started)
    (deadline : (f j).deadlineTimer = j.deadlineTimer) :
    (State.modifyJob { s with la := s.la.pushStack i } i f).arbiterLawful := by
  refine h.land hj (fun k hk => .pushStack s.la hk) ?_ ?_ (by simp [kept, started]) (fun runs => ?_) (by simp [state])
  · rw [Arbiter.pushStack_count, h.out]
  · simp [state, Arbiter.standsIn, Arbiter.pushStack]
  · rw [deadline] at runs
    simp [h.deadline j hj runs] at started

/-- A job in its place, whose transmission is over or has not begun, changes and stays there. -/
theorem State.QuietAt.revise {f : Job → Job} (h : s.QuietAt i) (hj : s.job i = some j)
    (stands : s.la.standsIn i (f j).cls (f j).state)
    (starts : (f j).started = false → (f j).state = .queued ∨ s.la.position = .candidate i .queue)
    (deadline : (f j).deadlineTimer.isSome = true → (f j).started = false) (quiet : (f j).state ≠ .sending) :
    (s.modifyJob i f).arbiterLawful := by
  have revised : (s.modifyJob i f).job i = some (f j) := by rw [State.modifyJob_job_self, hj]; rfl
  have one {P : Job → Prop} (hf : P (f j)) (j' : Job) (hj' : (s.modifyJob i f).job i = some j') : P j' := by
    cases revised.symm.trans hj'
    exact hf
  refine State.QuietAt.arbiterLawful (i := i) ⟨fun k hk => (h.others k hk).congr (.modifyJob_ne s f hk),
    ⟨?_, one stands, one starts, one deadline⟩, h.undriven⟩ (one quiet)
  have once := h.placed.once
  rw [hj] at once
  rw [revised]
  exact once

/-! ### Selection -/

/-- R50: selection chooses a job of the stack or of a queue. -/
theorem State.choice_mem {o : Origin} (h : s.choice = some (i, o)) :
    o = .stack ∧ i ∈ s.la.stack ∨ o = .queue ∧ ∃ q : Class, i ∈ s.la.queues[q] := by
  have head {q : Class} (h : s.la.queues[q].head?.map (·, Origin.queue) = some (i, o)) :
      o = .queue ∧ ∃ q : Class, i ∈ s.la.queues[q] := by
    obtain ⟨k, hk, same⟩ := Option.map_eq_some_iff.1 h
    cases same
    exact ⟨rfl, q, List.mem_of_mem_head? hk⟩
  unfold State.choice at h
  split at h
  · rename_i top _ _
    cases h
    exact .inl ⟨rfl, List.mem_of_getLast? ‹_›⟩
  · split at h
    · cases h
      exact .inl ⟨rfl, List.mem_of_getLast? ‹_›⟩
    · exact .inr (head h)
  · exact .inr (head h)
  · cases h

/-- R50: a job becomes the candidate in an empty line position, from its queue unless it has started. -/
theorem State.QuietAt.makeCandidate (h : s.QuietAt i) (hj : s.job i = some j) (empty : s.la.position = .empty)
    {o : Origin} (origin : j.started = false → o = .queue) : (s.makeCandidate i o).arbiterLawful := by
  have left : (s.la.without i).position = .empty := Arbiter.without_empty (by simp [empty, LinePosition.slot])
  have candidate : (State.modifyJob { s.vacate i with la := { s.la.without i with
      position := .candidate i o, guard := none, repeatTimer := none, periodDone := false } } i
      fun x => { x with state := .starting }).arbiterLawful := by
    refine h.vacate.land hj (fun k hk => ⟨fun _ => rfl, rfl, rfl, .inr ⟨?_, ?_⟩⟩) ?_ ⟨o, rfl⟩ (fun fresh => .inr ?_)
      (h.placed.deadline j hj) (by simp)
    · rw [State.vacate_la, left]; simp [LinePosition.slot]
    · simpa [LinePosition.slot] using hk.symm
    · exact Arbiter.candidate_count h.vacate.out
    · rw [origin fresh]
  exact candidate.congr fun k => .startGuard _ i k

/-- R50, R51: selection in an empty line position. -/
theorem State.arbiterLawful.select (h : s.arbiterLawful) (empty : s.la.position = .empty) : s.select.arbiterLawful := by
  unfold State.select
  split
  · rename_i i o chosen
    have placed := (State.arbiterLawful_iff.1 h i).placed
    obtain ⟨rfl, top⟩ | ⟨rfl, q, head⟩ := State.choice_mem chosen
    · obtain ⟨j, hj, suspended⟩ := placed.found.2.1 top
      refine (h.quietAt fun j' hj' => ?_).makeCandidate hj empty fun fresh => ?_
      · cases hj.symm.trans hj'; simp [suspended]
      · have := placed.started hj (by simp [suspended]) (by simp [empty])
        simp [this] at fresh
    · obtain ⟨j, hj, queued⟩ := placed.found.1 q head
      refine (h.quietAt fun j' hj' => ?_).makeCandidate hj empty fun _ => rfl
      cases hj.symm.trans hj'; simp [queued]
  · exact h

theorem State.arbiterLawful.selectIfEmpty (h : s.arbiterLawful) : s.selectIfEmpty.arbiterLawful := by
  unfold State.selectIfEmpty
  split
  · exact h.select ‹_›
  · exact h

/-! ### Displacement, preemption and joins -/

/-- R64: the slot in the line position leaves it empty. -/
theorem Arbiter.without_empty_of_held {a : Arbiter} (held : a.position.slot = some i) :
    (a.without i).position = .empty := (a.without_held i held).1

/-- R54: a displaced candidate waits where it came from. -/
theorem State.arbiterLawful.displace (h : s.arbiterLawful) {o : Origin} (candidate : s.la.position = .candidate i o) :
    (s.displace i o).arbiterLawful ∧ (s.displace i o).la.position = .empty := by
  have placed := (State.arbiterLawful_iff.1 h i).placed
  obtain ⟨j, hj, starting⟩ := placed.found.2.2.1 o candidate
  have quiet : s.QuietAt i := h.quietAt fun j' hj' => by cases hj.symm.trans hj'; simp [starting]
  have left := Arbiter.without_empty_of_held (i := i) (a := s.la) (by rw [candidate]; rfl)
  cases o with
  | queue =>
    refine ⟨?_, left⟩
    rw [State.displace, State.jobClass_of_job hj]
    exact quiet.vacate.enqueue hj (by simp) (by simp) fun k hk => by simp [hk.symm]
  | stack =>
    have started := placed.started hj (by simp [starting]) (by simp [candidate])
    exact ⟨quiet.vacate.suspend hj started rfl rfl rfl, left⟩

/-- R59: a preempted holder waits on the stack. -/
theorem State.arbiterLawful.preempt (h : s.arbiterLawful) (gap : s.jobIn i .gap = true)
    (holder : s.la.position = .holder i) : (s.preempt i).arbiterLawful := by
  have placed := (State.arbiterLawful_iff.1 h i).placed
  obtain ⟨j, hj, gap⟩ := State.jobIn_iff.1 gap
  have quiet : s.QuietAt i := h.quietAt fun j' hj' => by cases hj.symm.trans hj'; simp [gap]
  have started := placed.started hj (by simp [gap]) (by simp [holder])
  have left := Arbiter.without_empty_of_held (i := i) (a := s.la) (by rw [holder]; rfl)
  exact (quiet.vacate.suspend (f := fun j => { j with state := .suspended, resumeFull := true }) hj started rfl rfl
    rfl).select left

/-- R62: what a join does to the line position. -/
theorem State.arbiterLawful.reactToJoin (h : s.arbiterLawful) (c : Class) : (s.reactToJoin c).arbiterLawful := by
  unfold State.reactToJoin
  split
  · exact h.select ‹_›
  · split
    · obtain ⟨displaced, empty⟩ := h.displace ‹_›
      exact displaced.select empty
    · exact h
  · split
    · rename_i reaction
      exact h.preempt (Bool.and_eq_true_iff.1 reaction).1 ‹_›
    · exact h

/-- R38, R62: a job joins the tail of its class queue. -/
theorem State.Lifted.joinTail (h : s.Lifted i) (hj : s.job i = some j) : (s.joinTail i).arbiterLawful := by
  rw [State.joinTail, State.jobClass_of_job hj]
  exact (h.enqueue hj (by simp) (by simp) fun k hk => by simp [hk.symm]).reactToJoin _

theorem State.Lifted.joinHead (h : s.Lifted i) (hj : s.job i = some j) : (s.joinHead i).arbiterLawful := by
  rw [State.joinHead, State.jobClass_of_job hj]
  exact (h.enqueue hj (by simp) (by simp) fun k hk => by simp [hk.symm]).reactToJoin _

/-! ### Ends -/

/-- R88, R51: the end of a job that is not driven. -/
theorem State.QuietAt.endSilently (h : s.QuietAt i) : (s.endSilently i).arbiterLawful := by
  unfold State.endSilently
  split
  · exact h.dropJob.select (Arbiter.without_empty_of_held ‹_›)
  · exact h.dropJob

theorem State.QuietAt.endJob (h : s.QuietAt i) (o : JobOutcome) : (s.endJob i o).arbiterLawful :=
  (h.congr fun k => .notify s i o k).endSilently

/-! ### Frame ends and collisions -/

/-- R23: a SENDING job has started and is the holder, whether or not its drive is over. -/
theorem State.SlotPlaced.sending (h : s.SlotPlaced i) (hj : s.job i = some j) (sending : j.state = .sending) :
    s.la.position = .holder i ∧ j.started = true := by
  have holder : s.la.position = .holder i := by simpa [sending, Arbiter.standsIn] using h.stands j hj
  exact ⟨holder, h.started hj (by simp [sending]) (by simp [holder])⟩

/-- R56: the holder enters GAP once its drive is over. -/
theorem State.QuietAt.enterGap (h : s.QuietAt i) (sending : s.jobIn i .sending = true) :
    (s.enterGap i).arbiterLawful := by
  obtain ⟨j, hj, sending⟩ := State.jobIn_iff.1 sending
  obtain ⟨holder, started⟩ := h.placed.sending hj sending
  have gap : (s.modifyJob i fun x => { x with state := .gap }).arbiterLawful :=
    h.revise hj holder (by simp [started]) (h.placed.deadline j hj) (by simp)
  unfold State.enterGap
  dsimp only
  split
  · exact gap.preempt (State.jobIn_iff.2 ⟨{ j with state := .gap }, by simp [hj], rfl⟩) holder
  · exact gap.congr fun k => .startGuard _ i k

/-- R64, R65, R79: the holder enters BACKOFF once its drive is over. -/
theorem State.QuietAt.enterBackoff (h : s.QuietAt i) (sending : s.jobIn i .sending = true) :
    (s.enterBackoff i).arbiterLawful := by
  obtain ⟨j, hj, sending⟩ := State.jobIn_iff.1 sending
  obtain ⟨holder, started⟩ := h.placed.sending hj sending
  have backoff := h.vacate.land (a := (s.la.without i).pushBackoff i)
    (f := fun x => { x with state := .backoff, backoffTimer := some (s.backoffOf i) }) hj
    (fun k hk => .pushBackoff hk ?_) (Arbiter.pushBackoff_count h.vacate.out) (Arbiter.mem_pushBackoff _ i)
    (by simp [started]) (h.placed.deadline j hj) (by simp)
  · exact backoff.select (Arbiter.without_empty_of_held (by rw [holder]; rfl))
  · have := (h.vacate.others k hk).placed.count_le
    rw [Arbiter.places_count] at this
    omega

/-- R74 to R76: DONE at the job table, once the drive is over. -/
theorem State.QuietAt.frameEnd (h : s.QuietAt i) (sending : s.jobIn i .sending = true) (form : Form) :
    (s.frameEnd i form).arbiterLawful := by
  obtain ⟨j, hj, sending⟩ := State.jobIn_iff.1 sending
  unfold State.frameEnd
  rw [hj]
  dsimp only
  have told : ∀ k, s.SameSlot (if form = .full then s.deliver j.localEvent else s) k := fun k => by
    split
    · exact .receives (.deliver s _) k
    · exact .of_blocks rfl rfl rfl
  have still : (if form = .full then s.deliver j.localEvent else s).job i = some j := by
    split
    · rw [State.deliver_job, hj]
    · exact hj
  generalize (if form = .full then s.deliver j.localEvent else s) = s1 at told still
  have quiet := h.congr told
  split
  · exact quiet.endSilently
  · have counted := quiet.congr fun k => .modifyJob s1 i k (f := Job.countSent)
    split
    · exact counted.endJob _
    · exact counted.enterGap (State.jobIn_iff.2 ⟨j.countSent, by simp [still], sending⟩)

/-- R79: COLLIDED at the job table, once the drive is over. -/
theorem State.QuietAt.collided (h : s.QuietAt i) (sending : s.jobIn i .sending = true) :
    (s.collided i).arbiterLawful := by
  obtain ⟨j, hj, sending⟩ := State.jobIn_iff.1 sending
  unfold State.collided
  rw [hj]
  dsimp only
  split
  · exact h.endSilently
  · have counted := h.congr fun k => .modifyJob s i k (f := Job.countCollision)
    split
    · exact counted.endJob _
    · exact counted.enterBackoff (State.jobIn_iff.2 ⟨j.countCollision, by simp [hj], sending⟩)

/-! ### Frame starts -/

/-- R53, R57: the job that starts a frame is the candidate, or the holder in GAP. -/
def State.mayStart (s : State) (i : SlotId) : Prop :=
  (∃ o, s.la.position = .candidate i o) ∨ s.la.position = .holder i ∧ s.jobIn i .gap = true

theorem State.mayStart.held (h : s.mayStart i) : s.la.position.slot = some i := by
  obtain ⟨o, candidate⟩ | ⟨holder, _⟩ := h
  · rw [candidate]; rfl
  · rw [holder]; rfl

/-- R68: nothing is driven where a frame may start. -/
theorem State.arbiterLawful.undriven (h : s.arbiterLawful) (start : s.mayStart i) (k : SlotId) : ¬s.driven k := by
  intro driven
  have lawful := State.arbiterLawful_iff.1 h k
  obtain ⟨j, hj, sending⟩ := State.jobIn_iff.1 (lawful.drives.2 driven)
  obtain ⟨holder, _⟩ := lawful.placed.sending hj sending
  obtain ⟨o, candidate⟩ | ⟨holder', gap⟩ := start
  · cases holder.symm.trans candidate
  · cases holder.symm.trans holder'
    obtain ⟨j', hj', gap⟩ := State.jobIn_iff.1 gap
    cases hj.symm.trans hj'
    cases sending.symm.trans gap

/-- R25: the record at a frame start: SENDING, started, and without a deadline. -/
theorem Job.atFrameStart_stage (j : Job) (law : j.deadlineTimer.isSome = true → j.started = false) :
    j.atFrameStart.state = .sending ∧ j.atFrameStart.started = true ∧ j.atFrameStart.deadlineTimer.isSome = false := by
  rw [j.atFrameStart_eq]
  refine ⟨rfl, rfl, ?_⟩
  cases started : j.started with
  | true => simpa [started] using law
  | false => rfl

/-- R46: how often a slot stands in the arbiter depends on the queues, the stack, the backoff set and the slot in the
line position. -/
theorem Arbiter.count_congr {a b : Arbiter} (queues : b.queues = a.queues) (stack : b.stack = a.stack)
    (backoff : b.backoff = a.backoff) (held : b.position.slot = a.position.slot) :
    b.places.count i = a.places.count i := by
  simp only [Arbiter.places_count, queues, stack, backoff, held]

/-- R53, R57, R68: a frame start makes the job the holder, SENDING and driven. -/
theorem State.arbiterLawful.frameStart (h : s.arbiterLawful) (start : s.mayStart i) :
    (s.frameStart i).arbiterLawful := by
  have idle := h.undriven start
  have held := start.held
  have lawful := State.arbiterLawful_iff.1 h
  unfold State.frameStart
  split
  case h_2 => exact h
  rename_i j pr hj _
  obtain ⟨sending, started, noDeadline⟩ := j.atFrameStart_stage ((lawful i).placed.deadline j hj)
  refine State.arbiterLawful_iff.2 fun k => ?_
  by_cases hk : k = i
  · subst k
    have begun : (s.modifyJob i Job.atFrameStart).job i = some j.atFrameStart := by
      rw [State.modifyJob_job_self, hj]; rfl
    refine ⟨⟨?_, fun x hx => ?_, fun x hx fresh => ?_, fun x hx runs => ?_⟩, ?_⟩
    · refine Eq.trans (Arbiter.count_congr (a := s.la) rfl rfl rfl held.symm) ((lawful i).placed.once.trans ?_)
      change _ = if ((s.modifyJob i Job.atFrameStart).job i).isSome then 1 else 0
      rw [begun, hj]
      rfl
    · cases begun.symm.trans hx
      rw [sending]
      exact rfl
    · cases begun.symm.trans hx
      cases started.symm.trans fresh
    · cases begun.symm.trans hx
      cases noDeadline.symm.trans runs
    · exact ⟨fun _ => ⟨_, rfl, rfl⟩, fun _ => State.jobIn_iff.2 ⟨_, begun, sending⟩⟩
  · have job := s.modifyJob_job_ne i k Job.atFrameStart hk
    refine ⟨(lawful k).placed.congr (congrArg _ job) ⟨fun _ => rfl, rfl, rfl, .inr ⟨?_, ?_⟩⟩, fun sending => ?_, ?_⟩
    · rw [held]; exact fun e => hk (Option.some.inj e).symm
    · exact fun e => hk (Option.some.inj e).symm
    · obtain ⟨x, hx, sending⟩ := State.jobIn_iff.1 sending
      exact absurd ((lawful k).drives.1 (State.jobIn_iff.2 ⟨x, job.symm.trans hx, sending⟩)) (idle k)
    · rintro ⟨d, hd, slot⟩
      cases hd
      exact absurd slot.symm hk

/-! ### Session close -/

/-- R44, R66, R83: a close at one slot. -/
theorem State.arbiterLawful.closeJob (h : s.arbiterLawful) (p : Port) (cut : Bool) (i : SlotId) :
    (s.closeJob p cut i).arbiterLawful := by
  obtain ⟨_, same⟩ | ⟨j, hj, _, ⟨sending, _, ended⟩ | ⟨_, _, orphan⟩ | ⟨quiet, ended⟩⟩ := s.closeJob_cases p cut i
  · rw [same]; exact h
  · rw [ended]
    exact (h.stopDrive ((State.arbiterLawful_iff.1 h i).drives.1 (State.jobIn_iff.2 ⟨j, hj, sending⟩))).dropJob
  · rw [orphan]
    exact h.congr fun k => .modifyJob s i k
  · rw [ended]
    exact (h.quietAt fun j' hj' => by cases hj.symm.trans hj'; exact quiet).dropJob

theorem State.arbiterLawful.closeJobs (h : s.arbiterLawful) (p : Port) (cut : Bool) :
    (s.closeJobs p cut).arbiterLawful := by
  have fold (slots : List SlotId) (u : State) (hu : u.arbiterLawful) :
      (slots.foldl (State.closeJob p cut) u).arbiterLawful := by
    induction slots generalizing u with
    | nil => exact hu
    | cons i slots ih => exact ih _ (hu.closeJob p cut i)
  exact (fold allSlots s h).selectIfEmpty

/-! ### Merging -/

/-- R31 to R33: a merge into an unstarted job. -/
theorem State.arbiterLawful.mergeInto (h : s.arbiterLawful) (hj : s.job i = some j) (unstarted : j.unstarted = true)
    (x : Submission) (pr : Profile) (tag : Byte) : (s.mergeInto i j x pr tag).arbiterLawful := by
  have placed := (State.arbiterLawful_iff.1 h i).placed
  have waits : (j.state = .queued ∨ j.state = .starting) ∧ j.started = false := by
    simpa [Job.unstarted] using unstarted
  obtain ⟨state, fresh⟩ := waits
  have quiet : s.QuietAt i := h.quietAt fun j' hj' => by
    cases hj.symm.trans hj'
    obtain state | state := state <;> simp [state]
  unfold State.mergeInto
  dsimp only
  split
  · rename_i same
    have merged : (s.modifyJob i fun j => j.merge x pr tag).arbiterLawful := by
      refine quiet.revise hj ?_ (fun _ => placed.starts j hj fresh) (fun _ => fresh) ?_
      · have stands := placed.stands j hj
        rw [same] at stands
        exact stands
      · obtain state | state := state <;> simp [Job.merge, state]
    split
    · exact merged.congr fun k => .startGuard _ i k
    · exact merged
  · have lifted : ((s.modifyJob i fun j => j.merge x pr tag).vacate i).Lifted i :=
      quiet.vacate.modifyJob fun j' hj' _ => by cases hj.symm.trans hj'; exact fresh
    exact lifted.joinTail (j := j.merge x pr tag) (by simp [hj])

end Sys2Proof.Machine
end

section
/-! PROOFS. What sessions hold (R35, R44, R89, R171): the relation that a change neither gives a port anything to hold
nor takes its session, and the operations that make no other change. -/

-- The proofs run one after another, for the memory limit of the check.
set_option Elab.async false

namespace Sys2Proof.Machine

/-! ### Counting jobs -/

/-- A test that holds of one slot more. -/
theorem countP_allSlots_succ {f g : SlotId → Bool} {i : SlotId} (same : ∀ k, k ≠ i → f k = g k) (hf : f i = false)
    (hg : g i = true) : allSlots.countP g = allSlots.countP f + 1 := by
  have perm := List.perm_cons_erase (mem_allSlots i)
  have rest : (allSlots.erase i).countP g = (allSlots.erase i).countP f :=
    List.countP_congr fun k hk => by rw [same k ((allSlots_nodup.mem_erase_iff).1 hk).1]
  rw [perm.countP_eq, perm.countP_eq, List.countP_cons_of_pos hg, List.countP_cons_of_neg (by simp [hf]), rest]

section
variable (s : State) {i : SlotId} {j : Job} (test : Job → Bool)

/-- A FREE slot counts no job. -/
theorem State.countJobs_freeSlot (hj : s.job i = some j) (ht : test j = true) :
    s.countJobs test = (s.freeSlot i).countJobs test + 1 := by
  refine countP_allSlots_succ (i := i) (fun k hk => ?_) ?_ ?_
  · simp only [State.jobSatisfies, s.freeSlot_job_ne i k hk]
  · simp [State.jobSatisfies]
  · simp [State.jobSatisfies, hj, ht]

/-- R21: an allocated slot counts one job more where the new job satisfies the test. -/
theorem State.countJobs_fillSlot (free : s.job i = none) :
    (s.fillSlot i j).countJobs test = s.countJobs test + if test j then 1 else 0 := by
  cases ht : test j with
  | true =>
    refine countP_allSlots_succ (i := i) (fun k hk => ?_) ?_ ?_
    · simp only [State.jobSatisfies, s.fillSlot_job_ne i k j hk]
    · simp [State.jobSatisfies, free]
    · simp [State.jobSatisfies, ht]
  | false =>
    refine List.countP_congr fun k _ => ?_
    by_cases hk : k = i
    · subst k; simp [State.jobSatisfies, free, ht]
    · simp only [State.jobSatisfies, s.fillSlot_job_ne i k j hk]

end

/-- R35: with the jobs' owners kept and no notice more, the sum does not rise. -/
theorem State.noticeSum_le {s t : State} {p : Port}
    (owner : ∀ i j', t.job i = some j' → ∃ j, s.job i = some j ∧ j'.owner = j.owner)
    (notices : (t.port p).notices.length ≤ (s.port p).notices.length) : t.noticeSum p ≤ s.noticeSum p := by
  refine Nat.add_le_add (List.countP_mono_left fun i _ owned => ?_) notices
  obtain ⟨j', hj', mine⟩ := State.jobSatisfies_eq_true.1 owned
  obtain ⟨j, hj, same⟩ := owner i j' hj'
  exact State.jobSatisfies_eq_true.2 ⟨j, hj, same ▸ mine⟩

/-! ### What sessions hold -/

/-- R89: whose job it is. -/
def Job.ownership (j : Job) : Port × Byte × Bool := (j.owner, j.epoch, j.orphan)

theorem Job.ownership_eq {j j' : Job} :
    j'.ownership = j.ownership ↔ j'.owner = j.owner ∧ j'.epoch = j.epoch ∧ j'.orphan = j.orphan := by
  simp [Job.ownership]

/-- R160, R171: of a port, its session, its pending request and its notices. -/
def HostPort.SameHeld (h h' : HostPort) : Prop :=
  h'.isOpen = h.isOpen ∧ h'.epoch = h.epoch ∧ h'.request = h.request ∧ h'.notices = h.notices

/-- From s to t no port opens, closes or takes a request, no port comes to hold an entry, a ring or a job, and a notice
comes only of a job of the port that was no orphan. The jobs and notices of no port rise in number (R35). -/
structure State.HoldsLess (s t : State) : Prop where
  session : ∀ p, (t.port p).isOpen = (s.port p).isOpen ∧ (t.port p).epoch = (s.port p).epoch
  request : ∀ p r, (t.port p).request = some r → (s.port p).request = some r
  entry   : ∀ e x', t.entry e = some x' → ∃ x, s.entry e = some x ∧ x'.owner = x.owner
  ring    : ∀ p, (t.ring p).isSome = true → (s.ring p).isSome = true
  notices : ∀ p, (t.port p).notices ≠ [] → (s.port p).notices ≠ [] ∨
    ∃ i j, s.job i = some j ∧ j.orphan = false ∧ j.owner = p
  job     : ∀ i j', t.job i = some j' → ∃ j, s.job i = some j ∧ j'.ownership = j.ownership
  room    : ∀ p, t.noticeSum p ≤ s.noticeSum p

namespace State.HoldsLess
variable {s t u : State}

/-- A change of blocks that leaves every owner, every session and every notice. -/
theorem of_same (job : ∀ i j', t.job i = some j' → ∃ j, s.job i = some j ∧ j'.ownership = j.ownership)
    (entries : t.entries = s.entries) (rings : ∀ p, (t.ring p).isSome = true → (s.ring p).isSome = true)
    (ports : ∀ p, (s.port p).SameHeld (t.port p)) : s.HoldsLess t where
  session := fun p => ⟨(ports p).1, (ports p).2.1⟩
  request := fun p r hr => by rwa [(ports p).2.2.1] at hr
  entry := fun e x hx => ⟨x, by rwa [State.entry, entries] at hx, rfl⟩
  ring := rings
  notices := fun p held => .inl (by rwa [(ports p).2.2.2] at held)
  job := job
  room := fun p => State.noticeSum_le (fun i j' hj' => by
    obtain ⟨j, hj, same⟩ := job i j' hj'
    exact ⟨j, hj, (Job.ownership_eq.1 same).1⟩) (by rw [(ports p).2.2.2])

/-- A change of blocks that hold nothing. -/
theorem of_blocks (jobs : t.jobs = s.jobs) (entries : t.entries = s.entries) (rings : t.rings = s.rings)
    (ports : ∀ p, (s.port p).SameHeld (t.port p)) : s.HoldsLess t :=
  of_same (fun i j' hj' => ⟨j', by rwa [State.job, jobs] at hj', rfl⟩) entries
    (fun p hp => by rwa [State.ring, rings] at hp) ports

theorem refl (s : State) : s.HoldsLess s := of_blocks rfl rfl rfl fun _ => ⟨rfl, rfl, rfl, rfl⟩

theorem trans (h : s.HoldsLess t) (h' : t.HoldsLess u) : s.HoldsLess u where
  session := fun p => ⟨(h'.session p).1.trans (h.session p).1, (h'.session p).2.trans (h.session p).2⟩
  request := fun p r hr => h.request p r (h'.request p r hr)
  entry := fun e x'' hx'' => by
    obtain ⟨x', hx', same'⟩ := h'.entry e x'' hx''
    obtain ⟨x, hx, same⟩ := h.entry e x' hx'
    exact ⟨x, hx, same'.trans same⟩
  ring := fun p hp => h.ring p (h'.ring p hp)
  notices := fun p held => by
    obtain held | ⟨i, j', hj', live, mine⟩ := h'.notices p held
    · exact h.notices p held
    · obtain ⟨j, hj, same⟩ := h.job i j' hj'
      obtain ⟨owner, _, orphan⟩ := Job.ownership_eq.1 same
      exact .inr ⟨i, j, hj, orphan ▸ live, owner ▸ mine⟩
  job := fun i j'' hj'' => by
    obtain ⟨j', hj', same'⟩ := h'.job i j'' hj''
    obtain ⟨j, hj, same⟩ := h.job i j' hj'
    exact ⟨j, hj, same'.trans same⟩
  room := fun p => (h'.room p).trans (h.room p)

theorem la (s : State) (a : Arbiter) : s.HoldsLess { s with la := a } :=
  of_blocks rfl rfl rfl fun _ => ⟨rfl, rfl, rfl, rfl⟩

theorem modifyJob (s : State) (i : SlotId) {f : Job → Job}
    (hf : ∀ j, (f j).ownership = j.ownership := by intro _; rfl) : s.HoldsLess (s.modifyJob i f) :=
  of_same (fun k j' hj' => by
    rw [State.modifyJob_job] at hj'
    split at hj'
    · subst k
      obtain ⟨j, hj, rfl⟩ := Option.map_eq_some_iff.1 hj'
      exact ⟨j, hj, hf j⟩
    · exact ⟨j', hj', rfl⟩) rfl (fun _ => id) fun _ => ⟨rfl, rfl, rfl, rfl⟩

theorem freeSlot (s : State) (i : SlotId) : s.HoldsLess (s.freeSlot i) :=
  of_same (fun k j' hj' => by
    rw [State.freeSlot_job] at hj'
    split at hj'
    · cases hj'
    · exact ⟨j', hj', rfl⟩) rfl (fun _ => id) fun _ => ⟨rfl, rfl, rfl, rfl⟩

theorem modifyPort (s : State) (p : Port) {f : HostPort → HostPort} (hf : ∀ h : HostPort, h.SameHeld (f h)) :
    s.HoldsLess (s.modifyPort p f) :=
  of_blocks rfl rfl rfl fun k => by
    rw [State.modifyPort_port]
    split
    · subst k; exact hf _
    · exact ⟨rfl, rfl, rfl, rfl⟩

theorem attend (s : State) (p : Port) : s.HoldsLess (s.attend p) := modifyPort s p fun _ => ⟨rfl, rfl, rfl, rfl⟩

theorem receives (h : s.OnlyReceives t) : s.HoldsLess t := by
  refine of_same (fun i j' hj' => ⟨j', ?_, rfl⟩) ?_ (fun p hp => ?_) fun p => ?_
  · rw [h.rest] at hj'; exact hj'
  · rw [h.rest]
  · rw [h.ring] at hp; simpa using hp
  · rw [h.port]; exact ⟨rfl, rfl, rfl, rfl⟩

/-! ### The arbiter -/

theorem vacate (s : State) (i : SlotId) : s.HoldsLess (s.vacate i) := la s _

theorem startGuard (s : State) (i : SlotId) : s.HoldsLess (s.startGuard i) := la s _

theorem dropJob (s : State) (i : SlotId) : s.HoldsLess (s.dropJob i) := (vacate s i).trans (freeSlot _ i)

theorem select (s : State) : s.HoldsLess s.select := by
  unfold State.select
  split
  · exact (la s _).trans ((modifyJob _ _).trans (startGuard _ _))
  · exact refl s

theorem selectIfEmpty (s : State) : s.HoldsLess s.selectIfEmpty := by
  unfold State.selectIfEmpty
  split
  · exact select s
  · exact refl s

theorem displace (s : State) (i : SlotId) (o : Origin) : s.HoldsLess (s.displace i o) := by
  cases o <;> exact (la s _).trans (modifyJob _ i)

theorem preempt (s : State) (i : SlotId) : s.HoldsLess (s.preempt i) :=
  (la s _).trans ((modifyJob _ i).trans (select _))

theorem reactToJoin (s : State) (c : Class) : s.HoldsLess (s.reactToJoin c) := by
  unfold State.reactToJoin
  split
  · exact select s
  · split
    · exact (displace s _ _).trans (select _)
    · exact refl s
  · split
    · exact preempt s _
    · exact refl s

theorem joinTail (s : State) (i : SlotId) : s.HoldsLess (s.joinTail i) :=
  (la s _).trans ((modifyJob _ i).trans (reactToJoin _ _))

theorem joinHead (s : State) (i : SlotId) : s.HoldsLess (s.joinHead i) :=
  (la s _).trans ((modifyJob _ i).trans (reactToJoin _ _))

theorem enterGap (s : State) (i : SlotId) : s.HoldsLess (s.enterGap i) := by
  refine (modifyJob s i (f := fun j => { j with state := .gap })).trans ?_
  unfold State.enterGap
  dsimp only
  split
  · exact preempt _ i
  · exact startGuard _ i

theorem enterBackoff (s : State) (i : SlotId) : s.HoldsLess (s.enterBackoff i) :=
  (la s _).trans ((modifyJob _ i).trans (select _))

/-! ### Ends and frame starts -/

theorem endSilently (s : State) (i : SlotId) : s.HoldsLess (s.endSilently i) := by
  unfold State.endSilently
  split
  · exact (dropJob s i).trans (select _)
  · exact dropJob s i

/-- R35, R88, R89: the notice of a job takes the room of the job. -/
theorem notifyDrop (s : State) (i : SlotId) (o : JobOutcome) : s.HoldsLess ((s.notify i o).dropJob i) := by
  unfold State.notify
  split
  case h_2 => exact dropJob s i
  rename_i j hj
  split
  case isFalse => exact dropJob s i
  rename_i may
  have live : j.orphan = false := by
    have may := (Bool.and_eq_true_iff.1 may).1
    simpa using may
  generalize j.notice i (s.ticket i) o s.timestamp = n
  have port (p : Port) : ((s.pushNotice j.owner n).port p) = if p = j.owner then
      { s.port p with notices := (s.port p).notices ++ [n], attn := ((s.pushNotice j.owner n).port p).attn }
      else s.port p := by
    simp only [State.pushNotice, State.attend_port, State.modifyPort_port]
    split
    · subst_vars; rfl
    · rfl
  refine ⟨fun p => ?_, fun p r hr => ?_, fun e x hx => ⟨x, hx, rfl⟩, fun _ => id, fun p held => ?_, (dropJob s i).job,
    fun p => ?_⟩
  · change ((s.pushNotice j.owner n).port p).isOpen = _ ∧ ((s.pushNotice j.owner n).port p).epoch = _
    rw [port]
    split <;> exact ⟨rfl, rfl⟩
  · change ((s.pushNotice j.owner n).port p).request = _ at hr
    rw [port] at hr
    split at hr <;> exact hr
  · change ((s.pushNotice j.owner n).port p).notices ≠ [] at held
    rw [port] at held
    split at held
    · exact .inr ⟨i, j, hj, live, Eq.symm ‹_›⟩
    · exact .inl held
  · change (s.freeSlot i).countJobs _ + ((s.pushNotice j.owner n).port p).notices.length ≤ s.noticeSum p
    rw [port]
    split
    · have := s.countJobs_freeSlot (fun x => x.owner == p) hj (by simp [*])
      simp only [State.noticeSum, List.length_append, List.length_singleton]
      omega
    · exact (freeSlot s i).room p

theorem endJob (s : State) (i : SlotId) (o : JobOutcome) : s.HoldsLess (s.endJob i o) := by
  unfold State.endJob State.endSilently
  split
  · exact (notifyDrop s i o).trans (select _)
  · exact notifyDrop s i o

theorem frameStart (s : State) (i : SlotId) : s.HoldsLess (s.frameStart i) := by
  have same (j : Job) : j.atFrameStart.ownership = j.ownership := by rw [j.atFrameStart_eq]; rfl
  unfold State.frameStart
  split
  · exact (modifyJob s i same).trans (of_blocks rfl rfl rfl fun _ => ⟨rfl, rfl, rfl, rfl⟩)
  · exact refl s

theorem stopDrive (s : State) : s.HoldsLess s.stopDrive := of_blocks rfl rfl rfl fun _ => ⟨rfl, rfl, rfl, rfl⟩

theorem frameEnd (s : State) (i : SlotId) (form : Form) : s.HoldsLess (s.frameEnd i form) := by
  unfold State.frameEnd
  split
  · exact refl s
  · rename_i j _
    have told : s.HoldsLess (if form = .full then s.deliver j.localEvent else s) := by
      split
      · exact receives (.deliver s _)
      · exact refl s
    refine told.trans ?_
    generalize (if form = .full then s.deliver j.localEvent else s) = s'
    dsimp only
    split
    · exact endSilently s' i
    · refine (modifyJob s' i (f := Job.countSent)).trans ?_
      split
      · exact endJob _ i _
      · exact enterGap _ i

theorem collided (s : State) (i : SlotId) : s.HoldsLess (s.collided i) := by
  unfold State.collided
  split
  · exact refl s
  · split
    · exact endSilently s i
    · refine (modifyJob s i (f := Job.countCollision)).trans ?_
      dsimp only
      split
      · exact endJob _ i _
      · exact enterBackoff _ i

theorem mergeInto (s : State) (i : SlotId) (j : Job) (x : Submission) (pr : Profile) (tag : Byte) :
    s.HoldsLess (s.mergeInto i j x pr tag) := by
  refine (modifyJob s i (f := fun j => j.merge x pr tag)).trans ?_
  unfold State.mergeInto
  dsimp only
  split
  · split
    · exact startGuard _ i
    · exact refl _
  · exact (vacate _ i).trans (joinTail _ i)

end State.HoldsLess

/-! ### Changes beside the jobs -/

/-- From s to t every slot stays at its stage and in its place, and no session comes to hold anything. -/
structure State.Beside (s t : State) : Prop where
  slots : ∀ k, s.SameSlot t k
  holds : s.HoldsLess t

namespace State.Beside
variable {s t u : State}

theorem trans (h : s.Beside t) (h' : t.Beside u) : s.Beside u :=
  ⟨fun k => (h.slots k).trans (h'.slots k), h.holds.trans h'.holds⟩

/-- A change of blocks that hold neither jobs nor anything of a session. -/
theorem of_blocks (jobs : t.jobs = s.jobs) (la : t.la = s.la) (tx : t.tx = s.tx) (entries : t.entries = s.entries)
    (rings : t.rings = s.rings) (ports : ∀ p, (s.port p).SameHeld (t.port p)) : s.Beside t :=
  ⟨fun _ => .of_blocks jobs la tx, .of_blocks jobs entries rings ports⟩

theorem refl (s : State) : s.Beside s := of_blocks rfl rfl rfl rfl rfl fun _ => ⟨rfl, rfl, rfl, rfl⟩

theorem receives (h : s.OnlyReceives t) : s.Beside t := ⟨.receives h, .receives h⟩

theorem modifyJob (s : State) (i : SlotId) {f : Job → Job} (stage : ∀ j, (f j).stage = j.stage := by intro _; rfl)
    (owner : ∀ j, (f j).ownership = j.ownership := by intro _; rfl) : s.Beside (s.modifyJob i f) :=
  ⟨fun k => .modifyJob s i k stage, .modifyJob s i owner⟩

/-- A change of the arbiter that moves no slot. -/
theorem la (s : State) {a : Arbiter} (queues : a.queues = s.la.queues) (stack : a.stack = s.la.stack)
    (backoff : a.backoff = s.la.backoff) (position : a.position = s.la.position) : s.Beside { s with la := a } :=
  ⟨fun _ => .of_rest rfl (.of_places queues stack backoff position) rfl, .la s a⟩

theorem modifyPort (s : State) (p : Port) {f : HostPort → HostPort} (hf : ∀ h : HostPort, h.SameHeld (f h)) :
    s.Beside (s.modifyPort p f) := ⟨fun _ => .of_blocks rfl rfl rfl, .modifyPort s p hf⟩

theorem attend (s : State) (p : Port) : s.Beside (s.attend p) := modifyPort s p fun _ => ⟨rfl, rfl, rfl, rfl⟩

/-- R165: the answer to a request takes it from its port. -/
theorem answer (s : State) (p : Port) (r : Request) (status : Status) (body : List Byte) :
    s.Beside (s.modifyPort p fun h => h.answer r status body) := by
  have port (k : Port) : (s.modifyPort p fun h => h.answer r status body).port k = if k = p then
      (s.port k).answer r status body else s.port k := by
    rw [State.modifyPort_port]; split <;> simp [*]
  refine ⟨fun _ => .of_blocks rfl rfl rfl, ⟨fun k => ?_, fun k q hq => ?_, fun e x hx => ⟨x, hx, rfl⟩, fun _ => id,
    fun k held => .inl ?_, fun i j hj => ⟨j, hj, rfl⟩, fun k => State.noticeSum_le (fun i j hj => ⟨j, hj, rfl⟩) ?_⟩⟩
  · rw [port]; split <;> exact ⟨rfl, rfl⟩
  · rw [port] at hq
    split at hq
    · cases hq
    · exact hq
  · rw [port] at held; split at held <;> exact held
  · rw [port]; split <;> exact Nat.le_refl _

theorem reevaluateListening (s : State) : s.Beside s.reevaluateListening := receives (.reevaluateListening s)

/-- R131, R132, R142: entries go, or keep their owner. -/
theorem entries (s : State) {entries : Vector (Option Entry) 16}
    (owner : ∀ (e : EntryId) x', entries[e] = some x' → ∃ x, s.entry e = some x ∧ x'.owner = x.owner) :
    s.Beside { s with entries := entries } :=
  ⟨fun _ => .of_blocks rfl rfl rfl, { State.HoldsLess.refl s with entry := owner }⟩

/-- R146, R154: a ring goes, or stays a ring. -/
theorem setRing (s : State) (p : Port) {r : Option Ring} (was : r.isSome = true → (s.ring p).isSome = true) :
    s.Beside (s.setRing p r) :=
  ⟨fun _ => .of_blocks rfl rfl rfl, { State.HoldsLess.refl s with
    ring := fun k hk => by
      by_cases h : k = p
      · subst k; rw [State.setRing_ring_self] at hk; exact was hk
      · rwa [State.setRing_ring_ne _ _ _ _ h] at hk }⟩

end State.Beside

end Sys2Proof.Machine
end

section
/-! PROOFS. What a command can do to jobs and to what sessions hold: one change of a few, `State.JobStep`, with changes
beside the jobs before and after it. Every command is read here once, for the laws of O54, O58 and O60. -/

-- The proofs run one after another, for the memory limit of the check.
set_option Elab.async false

namespace Sys2Proof.Machine

/-- R164 check 6, R165: a request of port p is pending that needs a session. -/
def State.asksInSession (s : State) (p : Port) : Prop :=
  ∃ r, (s.port p).request = some r ∧ r.kind.needsSession = true

/-- The changes that move a job, or give a port a session, a request, an entry, a ring or a job, or take them away. -/
inductive State.JobStep (s : State) : State → Prop
  | nothing : s.JobStep s
  | reset (straps : BitVec 4) : s.JobStep
      { State.reset with stn := straps, ports := s.ports.map HostPort.fullReset, pending := s.pending }
  | frameStart (i : SlotId) (start : s.mayStart i) : s.JobStep (s.frameStart i)
  | frameEnd (d : Drive) (driving : s.tx.drive = some d) : s.JobStep (s.stopDrive.frameEnd d.slot d.form)
  | collided (d : Drive) (driving : s.tx.drive = some d) : s.JobStep (s.stopDrive.collided d.slot)
  | rejoined (i : SlotId) (j : Job) (hj : s.job i = some j) (backoff : j.state = .backoff) :
      s.JobStep (((s.vacate i).modifyJob i fun j => { j with backoffTimer := none }).joinHead i)
  | ended (i : SlotId) (o : JobOutcome)
      (quiet : ∀ j, s.job i = some j → j.state ≠ .sending ∨ j.deadlineTimer.isSome = true) : s.JobStep (s.endJob i o)
  | accepted (p : Port) (i : SlotId) (x : Submission) (pr : Profile) (tag : Byte) (asks : s.asksInSession p)
      (free : s.job i = none) (room : s.noticeSum p < Config.noticeRoom) :
      s.JobStep ((s.fillSlot i (x.job p (s.port p).epoch pr tag)).joinTail i)
  | merged (i : SlotId) (j : Job) (x : Submission) (pr : Profile) (tag : Byte) (hj : s.job i = some j)
      (unstarted : j.unstarted = true) : s.JobStep (s.mergeInto i j x pr tag)
  | subscribed (p : Port) (e : EntryId) (x : Entry) (asks : s.asksInSession p) (owner : x.owner = p) :
      s.JobStep (s.setEntry e (some x))
  | ringPlaced (p : Port) (r : Option Ring) (asks : s.asksInSession p) : s.JobStep (s.replaceRing p r)
  | opened (p : Port) (isClosed : (s.port p).isOpen = false) : s.JobStep (s.openPort p)
  | closed (p : Port) (cut : Bool) (r : Request) (status : Status) (body : List Byte) :
      s.JobStep ((s.closePort p cut).modifyPort p fun h => h.answer r status body)
  | deselected (p : Port) : s.JobStep (s.modifyPort p HostPort.deselect)

/-- t comes from s by one such change, with changes beside the jobs before and after. -/
def State.Steps (s t : State) : Prop := ∃ u v, s.Beside u ∧ u.JobStep v ∧ v.Beside t

section
variable {s t u : State}

theorem State.JobStep.steps (h : s.JobStep t) : s.Steps t := ⟨s, t, .refl s, h, .refl t⟩

theorem State.JobStep.thenBeside (h : s.JobStep t) (h' : t.Beside u) : s.Steps u := ⟨s, t, .refl s, h, h'⟩

theorem State.Beside.steps (h : s.Beside t) : s.Steps t := ⟨t, t, h, .nothing, .refl t⟩

theorem State.Steps.same (s : State) : s.Steps s := (State.Beside.refl s).steps

theorem State.Steps.thenBeside (h : s.Steps t) (h' : t.Beside u) : s.Steps u := by
  obtain ⟨v, w, before, step, after⟩ := h
  exact ⟨v, w, before, step, after.trans h'⟩

/-! ### Requests -/

/-- R165: taking a request does what the block's handler does, and answers it. -/
theorem State.takeRequest_steps {k : RequestKind} {p : Port} {h : Request → State → Reply}
    (handler : ∀ r, (k.needsSession = true → s.asksInSession p) → s.Steps (h r s).state)
    (ht : s.takeRequest k p h = .next t) : s.Steps t := by
  obtain none_pending | ⟨r, pending, kind, answered⟩ := s.takeRequest_cases k p h
  · rw [none_pending] at ht
    cases ht
    exact .same s
  · rw [answered] at ht
    cases ht
    exact (handler r fun needs => ⟨r, pending, kind ▸ needs⟩).thenBeside (.answer _ p r _ _)

variable (p : Port) (r : Request) (s)

theorem profileSetReply_steps : s.Steps (profileSetReply r s).state := by
  have define (q : ProfileId) (x : Option Profile) : s.Beside (s.setProfile q x) :=
    .of_blocks rfl rfl rfl rfl rfl fun _ => ⟨rfl, rfl, rfl, rfl⟩
  unfold profileSetReply
  split
  · unfold profileDefineReply
    repeat' split
    · exact .same s
    · exact .same s
    · exact .same s
    · exact (define _ _).steps
    · exact .same s
    · exact (define _ _).steps
  · exact .same s

/-- R31 to R37: what a submission that passed its checks does. -/
theorem State.decideSubmit_steps (x : Submission) (pr : Profile) (tag : Byte) (asks : s.asksInSession p) :
    s.Steps (s.decideSubmit p x pr tag).state := by
  unfold State.decideSubmit
  split
  · rename_i i j target
    obtain ⟨k, found, named⟩ := Option.bind_eq_some_iff.1 target
    obtain ⟨j', hj, same⟩ := Option.map_eq_some_iff.1 named
    cases same
    obtain ⟨_, satisfies, _⟩ := State.mergeTarget_eq_some.1 found
    obtain ⟨j', hj', test⟩ := State.jobSatisfies_eq_true.1 satisfies
    cases hj.symm.trans hj'
    exact (State.JobStep.merged i j x pr tag hj (Bool.and_eq_true_iff.1 test).2).steps
  · split
    · exact .same s
    · rename_i room
      split
      · exact .same s
      · rename_i i first
        have free : s.job i = none := by simpa using List.find?_some first
        exact (State.JobStep.accepted p i x pr tag asks free (Nat.lt_of_not_le room)).steps

theorem submitReply_steps (asks : s.asksInSession p) : s.Steps (submitReply p r s).state := by
  unfold submitReply
  split
  · exact .same s
  · split
    · exact .same s
    · split
      · exact s.decideSubmit_steps p _ _ _ asks
      · exact .same s

/-- R42: a request with a handle does what its effect on the job it names does. -/
theorem State.withHandle_steps {body : List Byte} {f : SlotId → Job → Reply}
    (hf : ∀ i j, s.job i = some j → s.Steps (f i j).state) : s.Steps (s.withHandle p body f).state := by
  unfold State.withHandle
  split
  · exact .same s
  · rename_i i j named
    split
    · refine hf i j ?_
      unfold State.handleJob at named
      split at named
      · cases named
      · split at named
        · cases named
        · split at named
          · cases named; assumption
          · cases named
    · exact .same s

/-- R88: the job that a request ends is not SENDING. -/
theorem State.endJob_steps {i : SlotId} {j : Job} (hj : s.job i = some j) (o : JobOutcome)
    (quiet : j.state ≠ .sending) : s.Steps (s.endJob i o) :=
  (State.JobStep.ended i o fun j' hj' => by cases hj.symm.trans hj'; exact .inl quiet).steps

theorem keepReply_steps : s.Steps (keepReply p r s).state := by
  refine s.withHandle_steps p fun i j _ => ?_
  split
  · exact .same s
  · split
    · exact .same s
    · exact (State.Beside.modifyJob s i).steps

theorem releaseReply_steps : s.Steps (releaseReply p r s).state := by
  refine s.withHandle_steps p fun i j hj => ?_
  split
  · exact .same s
  · split
    · refine (State.Beside.modifyJob s i (fun j => ?_) fun j => ?_).steps
      all_goals
        unfold Job.deferRelease
        split <;> rfl
    · rename_i quiet
      split
      · exact (State.Beside.modifyJob s i).steps
      · exact s.endJob_steps hj _ quiet

theorem cancelReply_steps : s.Steps (cancelReply p r s).state := by
  refine s.withHandle_steps p fun i j hj => ?_
  split
  · exact (State.Beside.modifyJob s i).steps
  · exact s.endJob_steps hj _ ‹_›

theorem jobQueryReply_steps : s.Steps (jobQueryReply p r s).state := s.withHandle_steps p fun _ _ _ => .same s

theorem subscribeReply_steps (asks : s.asksInSession p) : s.Steps (subscribeReply p r s).state := by
  unfold subscribeReply
  split
  · exact .same s
  · rename_i x body
    have owner : x.owner = p := by
      simp only [entryOfBody, Option.bind_eq_bind, Option.bind_eq_some_iff] at body
      obtain ⟨_, _, _, _, _, _, made⟩ := body
      cases made
      rfl
    split
    · exact .same s
    · split
      · exact .same s
      · exact (State.JobStep.subscribed p _ x asks owner).thenBeside (.reevaluateListening _)

/-- R130: a request that names an entry does what its effect on that entry does. -/
theorem State.withEntry_steps {body : List Byte} {f : EntryId → Entry → Reply}
    (hf : ∀ e x, s.entry e = some x → s.Steps (f e x).state) : s.Steps (s.withEntry p body f).state := by
  unfold State.withEntry
  split
  · exact .same s
  · rename_i e x named
    obtain ⟨k, _, found⟩ := Option.bind_eq_some_iff.1 named
    obtain ⟨y, hy, same⟩ := Option.map_eq_some_iff.1 found
    cases same
    split
    · exact hf e x hy
    · exact .same s

/-- R131, R132: an entry goes, or keeps its owner. -/
theorem State.changeEntry_beside {e : EntryId} {x : Option Entry}
    (owner : ∀ y, x = some y → ∃ z, s.entry e = some z ∧ y.owner = z.owner) : s.Beside (s.changeEntry e x) := by
  refine (State.Beside.entries s (entries := s.entries.set e x) fun k y hy => ?_).trans (.reevaluateListening _)
  by_cases hk : k = e
  · subst k
    exact owner y (by simpa using hy)
  · exact ⟨y, (s.setEntry_entry_ne e k x hk).symm.trans hy, rfl⟩

theorem unsubscribeReply_steps : s.Steps (unsubscribeReply p r s).state :=
  s.withEntry_steps p fun _ _ _ => (s.changeEntry_beside fun _ h => by cases h).steps

theorem subEnableReply_steps : s.Steps (subEnableReply p r s).state := by
  refine s.withEntry_steps p fun e x hx => ?_
  split
  · exact .same s
  · split
    · exact .same s
    · split
      · exact .same s
      · exact (s.changeEntry_beside fun y h => by cases h; exact ⟨x, hx, rfl⟩).steps

theorem ringSetReply_steps (asks : s.asksInSession p) : s.Steps (ringSetReply p r s).state := by
  unfold ringSetReply
  split
  · exact .same s
  · unfold State.placeRing
    repeat' split
    · exact .same s
    · exact .same s
    · exact .same s
    · exact (State.JobStep.ringPlaced p _ asks).steps

theorem ringReadReply_steps : s.Steps (ringReadReply p r s).state := by
  unfold ringReadReply
  split
  · exact .same s
  · unfold State.readRing
    split
    · exact .same s
    · rename_i r hr
      have mem (m : List Host.Cell) : s.Beside { s with mem := m } :=
        .of_blocks rfl rfl rfl rfl rfl fun _ => ⟨rfl, rfl, rfl, rfl⟩
      exact ((mem _).trans (.trans (.setRing _ p fun _ => by rw [State.ring] at hr; simp [State.ring, hr])
        (.attend _ p))).steps

theorem openReply_steps : s.Steps (openReply p r s).state := by
  unfold openReply
  split
  · exact .same s
  · rename_i closed
    exact (State.JobStep.opened p (Bool.eq_false_iff.2 closed)).steps

/-- R173: a CLOSE that is accepted has no session left when it is answered: the answer belongs to the change. -/
theorem execClose_steps (h : execClose p s = .next t) : s.Steps t := by
  obtain none_pending | ⟨r, _, _, answered⟩ := s.takeRequest_cases .closeSession p (closeReply p)
  · cases none_pending.symm.trans h
    exact .same s
  · cases answered.symm.trans h
    unfold closeReply
    split
    · exact (State.Beside.answer s p r _ _).steps
    · exact (State.JobStep.closed p _ r _ _).steps

theorem setAttnReply_steps : s.Steps (setAttnReply p r s).state := by
  unfold setAttnReply
  split
  · exact .same s
  · rename_i n _
    have threshold : s.Beside (s.modifyPort p fun h => { h with threshold := n }) :=
      .modifyPort s p fun _ => ⟨rfl, rfl, rfl, rfl⟩
    exact (threshold.trans (.attend _ p)).steps

/-- R103: a fetch takes notices away. -/
theorem State.dropNotices_beside (n : Nat) : s.Beside (s.dropNotices p n) := by
  refine .trans (t := s.modifyPort p fun h => { h with notices := h.notices.drop n }) ?_ (.attend _ p)
  have port (k : Port) : ((s.modifyPort p fun h => { h with notices := h.notices.drop n }).port k) = if k = p then
      { s.port k with notices := (s.port k).notices.drop n } else s.port k := by
    rw [State.modifyPort_port]; split <;> simp [*]
  refine ⟨fun _ => .of_blocks rfl rfl rfl, ⟨fun k => ?_, fun k q hq => ?_, fun e x hx => ⟨x, hx, rfl⟩, fun _ => id,
    fun k held => .inl fun none => held ?_, fun i j hj => ⟨j, hj, rfl⟩,
    fun k => State.noticeSum_le (fun i j hj => ⟨j, hj, rfl⟩) ?_⟩⟩
  · rw [port]; split <;> exact ⟨rfl, rfl⟩
  · rw [port] at hq; split at hq <;> exact hq
  · rw [port]; split <;> simp [none]
  · rw [port]; split <;> simp

theorem noticeFetchReply_steps : s.Steps (noticeFetchReply p r s).state := by
  unfold noticeFetchReply
  split
  · exact .same s
  · exact (s.dropNotices_beside p _).steps

end

/-! ### The line, the clock and the timers -/

section
variable {s t : State}

/-- R72: the drive moves on for its own slot. -/
theorem Transmitter.tick_slot (tx : Transmitter) (detect : Level) :
    (tx.tick detect).drive.map (·.slot) = tx.drive.map (·.slot) := by
  cases hd : tx.drive with
  | none => rw [Transmitter.tick_idle detect hd, hd]
  | some d =>
    cases hg : d.segments[d.position]? with
    | none => simp [Transmitter.tick, hd, Drive.intended, hg]
    | some g =>
      rw [Transmitter.tick_driving hg detect hd, Option.map_some, d.advance_rest]
      rfl

theorem State.driven_iff {i : SlotId} : s.driven i ↔ s.tx.drive.map (·.slot) = some i := by
  simp [State.driven]

theorem execLineTick_steps (h : execLineTick s = .next t) : s.Steps t := by
  cases h
  refine State.Beside.steps ⟨fun k => ⟨rfl, ?_, ?_⟩, .of_blocks rfl rfl rfl fun _ => ⟨rfl, rfl, rfl, rfl⟩⟩
  · cases s.rx.level <;> exact .of_places rfl rfl rfl rfl
  · simp only [State.driven_iff, Transmitter.tick_slot]

theorem State.Beside.lowerTimers (s : State) : s.Beside s.lowerTimers := by
  refine ⟨fun k => ⟨?_, .of_places rfl rfl rfl rfl, .rfl⟩, .of_same (fun i j' hj' => ?_) rfl (fun _ => id)
    fun _ => ⟨rfl, rfl, rfl, rfl⟩⟩
  · rw [State.lowerTimers_job, Option.map_map]
    congr 1
    funext j
    simp [Job.stage, Job.lowerTimers, Timer.lower]
  · rw [State.lowerTimers_job] at hj'
    obtain ⟨j, hj, rfl⟩ := Option.map_eq_some_iff.1 hj'
    exact ⟨j, hj, rfl⟩

theorem execMillisecondTick_steps (h : execMillisecondTick s = .next t) : s.Steps t := by
  obtain early | due := Nat.lt_or_ge s.tickCount 1000
  · rw [execMillisecondTick_early early] at h
    cases h
    exact .same s
  · rw [execMillisecondTick_due due] at h
    have made := Host.Outcome.next.inj h
    subst made
    have clock (n : Nat) (ms : BitVec 32) : s.lowerTimers.Beside { s.lowerTimers with tickCount := n, ms := ms } :=
      .of_blocks rfl rfl rfl rfl rfl fun _ => ⟨rfl, rfl, rfl, rfl⟩
    exact ((State.Beside.lowerTimers s).trans (clock _ _)).steps

theorem execDetectMark_steps (h : execDetectMark s = .next t) : s.Steps t := by
  unfold execDetectMark at h
  split at h <;> cases h
  · exact .same s
  · have turned : s.Beside s.turnToMark := ⟨fun _ => .of_rest rfl (.of_places rfl rfl rfl rfl) rfl,
      .of_blocks rfl rfl rfl fun _ => ⟨rfl, rfl, rfl, rfl⟩⟩
    exact (turned.trans (.receives (.judgeAtMark _ _))).steps

theorem execDetectSpace_steps (h : execDetectSpace s = .next t) : s.Steps t := by
  unfold execDetectSpace at h
  split at h <;> cases h
  · exact .same s
  · exact ((State.Beside.receives (.rx s _)).trans (.receives (.judgeAtSpace s.turnToSpace _))).steps

theorem execMarkTooLong_steps (h : execMarkTooLong s = .next t) : s.Steps t := by
  unfold execMarkTooLong at h
  split at h <;> cases h
  · exact (State.Beside.receives (.markTooLong s)).steps
  · exact .same s

theorem execLeaderSpaceTooLong_steps (h : execLeaderSpaceTooLong s = .next t) : s.Steps t := by
  unfold execLeaderSpaceTooLong at h
  split at h
  · split at h <;> cases h
    · exact (State.Beside.receives (.noise s)).steps
    · exact .same s
  · cases h
    exact .same s

theorem execEndGapReached_steps (h : execEndGapReached s = .next t) : s.Steps t := by
  unfold execEndGapReached at h
  split at h
  · split at h
    · split at h <;> cases h
      · exact (State.Beside.receives (.closeDecode s _ _)).steps
      · exact .same s
    · cases h
      exact .same s
  · cases h
    exact .same s

theorem execClosingGapReached_steps (h : execClosingGapReached s = .next t) : s.Steps t := by
  unfold execClosingGapReached at h
  split at h
  · split at h <;> cases h
    · exact (State.Beside.receives (.rx s _)).steps
    · exact .same s
  · cases h
    exact .same s

theorem execHoldWindowExpiry_steps (h : execHoldWindowExpiry s = .next t) : s.Steps t := by
  unfold execHoldWindowExpiry at h
  split at h
  · split at h <;> cases h
    · exact (State.Beside.receives (.endHold s _)).steps
    · exact .same s
  · cases h
    exact .same s

theorem execGuardComplete_steps (h : execGuardComplete s = .next t) : s.Steps t := by
  unfold execGuardComplete at h
  split at h
  · split at h
    · rename_i i o candidate
      cases h
      exact (State.JobStep.frameStart i (.inl ⟨o, candidate⟩)).steps
    · rename_i i holder
      split at h <;> cases h
      · rename_i start
        exact (State.JobStep.frameStart i (.inr ⟨holder, start.1⟩)).steps
      · exact .same s
    · cases h
      exact .same s
  · cases h
    exact .same s

theorem execRepeatPeriodExpiry_steps (h : execRepeatPeriodExpiry s = .next t) : s.Steps t := by
  have period : s.Beside s.endPeriod := .la s rfl rfl rfl rfl
  unfold execRepeatPeriodExpiry at h
  split at h
  · split at h
    · rename_i i holder
      split at h <;> cases h
      · rename_i start
        exact ⟨_, _, period, .frameStart i (.inr ⟨holder, start.1⟩), .refl _⟩
      · exact period.steps
    all_goals
      cases h
      exact .same s
  · cases h
    exact .same s

theorem execDriveDone_steps (h : execDriveDone s = .next t) : s.Steps t := by
  unfold execDriveDone at h
  split at h
  · split at h <;> cases h
    · exact (State.JobStep.frameEnd _ ‹_›).steps
    · exact .same s
  · cases h
    exact .same s

theorem execCollision_steps (h : execCollision s = .next t) : s.Steps t := by
  unfold execCollision at h
  split at h
  · split at h <;> cases h
    · exact (State.JobStep.collided _ ‹_›).steps
    · exact .same s
  · cases h
    exact .same s

theorem execBackoffExpiry_steps {i : SlotId} (h : execBackoffExpiry i s = .next t) : s.Steps t := by
  unfold execBackoffExpiry at h
  split at h <;> cases h
  · rename_i due
    obtain ⟨j, hj, test⟩ := State.jobSatisfies_eq_true.1 due
    exact (State.JobStep.rejoined i j hj (by simpa using (Bool.and_eq_true_iff.1 test).1)).steps
  · exact .same s

theorem execDeadlineExpiry_steps {i : SlotId} (h : execDeadlineExpiry i s = .next t) : s.Steps t := by
  unfold execDeadlineExpiry at h
  split at h <;> cases h
  · rename_i due
    refine (State.JobStep.ended i _ fun j hj => .inr ?_).steps
    have due : j.deadlineTimer = some 0 := by simpa [State.jobSatisfies, hj, Timer.due] using due
    rw [due]
    rfl
  · exact .same s

theorem execLeaseExpiry_steps {i : SlotId} (h : execLeaseExpiry i s = .next t) : s.Steps t := by
  unfold execLeaseExpiry at h
  split at h
  · split at h <;> cases h
    · exact (State.Beside.modifyJob s i).steps
    · rename_i quiet
      exact (State.JobStep.ended i _ fun j hj => .inl fun sending => quiet (State.jobIn_iff.2 ⟨j, hj, sending⟩)).steps
  · cases h
    exact .same s

/-! ### The wires -/

theorem HostPort.select_sameHeld (h : HostPort) : h.SameHeld h.select := by
  unfold HostPort.select
  split <;> exact ⟨rfl, rfl, rfl, rfl⟩

theorem HostPort.takeBit_sameHeld (h : HostPort) (bit : Bool) : h.SameHeld (h.takeBit bit) := by
  unfold HostPort.takeBit
  dsimp only
  repeat' split
  all_goals exact ⟨rfl, rfl, rfl, rfl⟩

theorem HostPort.clockEdge_sameHeld (h : HostPort) (edge : Edge) : h.SameHeld (h.clockEdge edge) := by
  cases edge with
  | rising sdi =>
    simp only [HostPort.clockEdge]
    split
    · exact ⟨rfl, rfl, rfl, rfl⟩
    · exact HostPort.takeBit_sameHeld { h with clockHigh := true } sdi
  | falling =>
    simp only [HostPort.clockEdge, HostPort.presentNext]
    repeat' split
    all_goals exact ⟨rfl, rfl, rfl, rfl⟩

/-- R164 check 6: a request is handed on in a session, unless it needs none. -/
theorem judgeEnvelope_hand {isOpen : Bool} {bytes : List Byte} {r : Request} (h : judgeEnvelope isOpen bytes = .hand r)
    (needs : r.kind.needsSession = true) : isOpen = true := by
  unfold judgeEnvelope at h
  split at h
  · cases h
  · dsimp only at h
    repeat' split at h
    all_goals cases h
    rename_i session
    simpa [needs] using session

/-- R160, R165: a deselect leaves the session and the notices, and the request it puts in place needs no session or has
one. -/
theorem HostPort.deselect_held (h : HostPort) : h.deselect.isOpen = h.isOpen ∧ h.deselect.epoch = h.epoch ∧
    h.deselect.notices = h.notices ∧
      ∀ r, h.deselect.request = some r → h.request = some r ∨ (r.kind.needsSession = true → h.isOpen = true) := by
  unfold HostPort.deselect
  split
  · exact ⟨rfl, rfl, rfl, fun _ => .inl⟩
  · split
    · unfold HostPort.settle
      split
      · exact ⟨rfl, rfl, rfl, fun _ => .inl⟩
      · exact ⟨rfl, rfl, rfl, fun _ => .inl⟩
      · rename_i handed
        exact ⟨rfl, rfl, rfl, fun r hr => .inr (judgeEnvelope_hand (by cases hr; exact handed))⟩
    all_goals exact ⟨rfl, rfl, rfl, fun _ => .inl⟩

theorem execSelect_steps {p : Port} (h : execSelect p s = .next t) : s.Steps t := by
  unfold execSelect at h
  split at h <;> cases h
  · exact .same s
  · exact (State.Beside.modifyPort s p HostPort.select_sameHeld).steps

theorem execDeselect_steps {p : Port} (h : execDeselect p s = .next t) : s.Steps t := by
  unfold execDeselect at h
  split at h <;> cases h
  · exact (State.JobStep.deselected p).steps
  · exact .same s

theorem execSerialClockEdge_steps {p : Port} {edge : Edge} (h : execSerialClockEdge p edge s = .next t) :
    s.Steps t := by
  cases h
  exact (State.Beside.modifyPort s p fun h => h.clockEdge_sameHeld edge).steps

end

/-! ### Every command -/

/-- What every command does to jobs and to what sessions hold. -/
theorem exec_steps {c : Instr} {s t : State} (h : exec c s = .next t) : s.Steps t := by
  cases c with
  | fullReset straps => cases h; exact (State.JobStep.reset straps).steps
  | lineTick => exact execLineTick_steps h
  | millisecondTick => exact execMillisecondTick_steps h
  | detectMark => exact execDetectMark_steps h
  | detectSpace => exact execDetectSpace_steps h
  | markTooLong => exact execMarkTooLong_steps h
  | leaderSpaceTooLong => exact execLeaderSpaceTooLong_steps h
  | endGapReached => exact execEndGapReached_steps h
  | closingGapReached => exact execClosingGapReached_steps h
  | holdWindowExpiry => exact execHoldWindowExpiry_steps h
  | guardComplete => exact execGuardComplete_steps h
  | repeatPeriodExpiry => exact execRepeatPeriodExpiry_steps h
  | driveDone => exact execDriveDone_steps h
  | collision => exact execCollision_steps h
  | backoffExpiry i => exact execBackoffExpiry_steps h
  | deadlineExpiry i => exact execDeadlineExpiry_steps h
  | leaseExpiry i => exact execLeaseExpiry_steps h
  | select p => exact execSelect_steps h
  | deselect p => exact execDeselect_steps h
  | serialClockEdge p edge => exact execSerialClockEdge_steps h
  | hello p => exact State.takeRequest_steps (fun _ _ => .same s) h
  | openSession p => exact State.takeRequest_steps (fun r _ => openReply_steps s p r) h
  | closeSession p => exact execClose_steps s p h
  | setAttn p => exact State.takeRequest_steps (fun r _ => setAttnReply_steps s p r) h
  | noticeFetch p => exact State.takeRequest_steps (fun r _ => noticeFetchReply_steps s p r) h
  | lineQuery p => exact State.takeRequest_steps (fun _ _ => .same s) h
  | profileSet p => exact State.takeRequest_steps (fun r _ => profileSetReply_steps s r) h
  | profileGet p => exact State.takeRequest_steps (fun r _ => by rw [profileGetReply_state]; exact .same s) h
  | submit p => exact State.takeRequest_steps (fun r asks => submitReply_steps s p r (asks rfl)) h
  | keep p => exact State.takeRequest_steps (fun r _ => keepReply_steps s p r) h
  | release p => exact State.takeRequest_steps (fun r _ => releaseReply_steps s p r) h
  | cancel p => exact State.takeRequest_steps (fun r _ => cancelReply_steps s p r) h
  | jobQuery p => exact State.takeRequest_steps (fun r _ => jobQueryReply_steps s p r) h
  | subscribe p => exact State.takeRequest_steps (fun r asks => subscribeReply_steps s p r (asks rfl)) h
  | unsubscribe p => exact State.takeRequest_steps (fun r _ => unsubscribeReply_steps s p r) h
  | subEnable p => exact State.takeRequest_steps (fun r _ => subEnableReply_steps s p r) h
  | subList p => exact State.takeRequest_steps (fun _ _ => .same s) h
  | ringSet p => exact State.takeRequest_steps (fun r asks => ringSetReply_steps s p r (asks rfl)) h
  | ringRead p => exact State.takeRequest_steps (fun r _ => ringReadReply_steps s p r) h
  | ringQuery p => exact State.takeRequest_steps (fun _ _ => .same s) h

/-- What every step does to them; the queue of waiting commands is beside. -/
theorem step_steps {s t : State} (h : step s = .next t) : s.Steps t := by
  obtain rfl | ⟨c, rest, _, h⟩ := step_cases h
  · exact .same _
  · obtain ⟨u, v, before, step, after⟩ := exec_steps h
    have taken : s.Beside { s with pending := rest } :=
      .of_blocks rfl rfl rfl rfl rfl fun _ => ⟨rfl, rfl, rfl, rfl⟩
    exact ⟨u, v, taken.trans before, step, after⟩

end Sys2Proof.Machine
end

section
/-! PROOFS. The laws of the jobs' places, of the notice room and of the sessions (R23, R35, R39, R46, R49, R68, R171):
each change of `State.JobStep` keeps them, and so does every step. -/

-- The proofs run one after another, for the memory limit of the check.
set_option Elab.async false

namespace Sys2Proof.Machine

variable {s t u : State}

/-- Any law that the changes of `State.JobStep` and those beside the jobs keep is kept by every step. -/
theorem step_keeps {law : State → Prop} (beside : ∀ s t, s.Beside t → law s → law t)
    (jobStep : ∀ s t, s.JobStep t → law s → law t) (h : step s = .next t) (hs : law s) : law t := by
  obtain ⟨u, v, before, change, after⟩ := step_steps h
  exact beside v t after (jobStep u v change (beside s u before hs))

/-! ### Places -/

theorem State.reset_job (i : SlotId) : State.reset.job i = none := by simp [State.job, State.reset]

theorem State.reset_arbiterLawful : State.reset.arbiterLawful := by
  refine State.arbiterLawful_iff.2 fun i => ?_
  have free := State.reset_job i
  refine ⟨⟨?_, fun j hj => ?_, fun j hj => ?_, fun j hj => ?_⟩, fun sending => ?_, fun driven => ?_⟩
  · rw [free]; simp [Arbiter.places_count, State.reset, Arbiter.reset, LinePosition.slot]
  · cases free.symm.trans hj
  · cases free.symm.trans hj
  · cases free.symm.trans hj
  · obtain ⟨j, hj, _⟩ := State.jobIn_iff.1 sending
    cases free.symm.trans hj
  · obtain ⟨d, hd, _⟩ := driven
    cases hd

/-- R173: after the jobs, a close moves no job. -/
theorem State.closePort_sameSlot (s : State) (p : Port) (cut : Bool) (k : SlotId) :
    (s.closeJobs p cut).SameSlot (s.closePort p cut) k := by
  generalize hu : s.closeJobs p cut = u
  rw [State.closePort_eq s p cut hu]
  exact .of_blocks rfl rfl rfl

theorem State.JobStep.arbiterLawful (h : s.JobStep t) (hs : s.arbiterLawful) : t.arbiterLawful := by
  have lawful := State.arbiterLawful_iff.1 hs
  have sends {d : Drive} (driving : s.tx.drive = some d) : s.jobIn d.slot .sending = true :=
    (lawful d.slot).drives.2 ⟨d, driving, rfl⟩
  cases h with
  | nothing => exact hs
  | reset straps => exact State.reset_arbiterLawful.congr fun _ => .of_blocks rfl rfl rfl
  | frameStart i start => exact hs.frameStart start
  | frameEnd d driving => exact (hs.stopDrive ⟨d, driving, rfl⟩).frameEnd (sends driving) _
  | collided d driving => exact (hs.stopDrive ⟨d, driving, rfl⟩).collided (sends driving)
  | rejoined i j hj backoff =>
    have quiet : s.QuietAt i := hs.quietAt fun j' hj' => by cases hj.symm.trans hj'; simp [backoff]
    exact (quiet.vacate.modifyJob (f := fun j => { j with backoffTimer := none })
      (lawful i).placed.deadline).joinHead (j := { j with backoffTimer := none }) (by simp [hj])
  | ended i o quiet =>
    refine (hs.quietAt fun j hj sending => ?_).endJob o
    obtain state | deadline := quiet j hj
    · exact state sending
    · have fresh := (lawful i).placed.deadline j hj deadline
      cases ((lawful i).placed.sending hj sending).2.symm.trans fresh
  | accepted p i x pr tag _ free _ =>
    exact (hs.fillSlot free (x.job p (s.port p).epoch pr tag) fun _ => rfl).joinTail (s.fillSlot_job_self i _)
  | merged i j x pr tag hj unstarted => exact hs.mergeInto hj unstarted x pr tag
  | subscribed | ringPlaced | opened | deselected => exact hs.congr fun _ => .of_blocks rfl rfl rfl
  | closed p cut r status body =>
    exact ((hs.closeJobs p cut).congr (s.closePort_sameSlot p cut)).congr (State.Beside.answer _ p r status body).slots

/-! ### Notice room -/

theorem State.noticeRoomLawful.of_le (hs : s.noticeRoomLawful) (le : ∀ p, t.noticeSum p ≤ s.noticeSum p) :
    t.noticeRoomLawful := fun p => (le p).trans (hs p)

/-- R44, R66: what the close of a port leaves of the jobs: those of other ports, and orphans. -/
theorem State.closeJobs_job {p : Port} {cut : Bool} {i : SlotId} {j' : Job} (h : (s.closeJobs p cut).job i = some j') :
    ∃ j, s.job i = some j ∧ j'.owner = j.owner ∧ (j'.orphan = false → j.owner ≠ p ∧ j'.ownership = j.ownership) ∧
      (j'.orphan = true → j.orphan = true ∨ j.state = .sending ∧ cut = false) := by
  rw [State.closeJobs_eq] at h
  obtain ⟨k, hk, same⟩ := (State.HoldsLess.selectIfEmpty _).job i j' h
  obtain ⟨owner, epoch, orphan⟩ := Job.ownership_eq.1 same
  rw [State.closeSlots_job] at hk
  split at hk
  case isTrue => cases hk
  rename_i stays
  obtain ⟨j, hj, made⟩ := Option.map_eq_some_iff.1 hk
  have stays : j.endsAtClose p cut = false := by simpa [State.endsAtClose, State.jobSatisfies, hj] using stays
  refine ⟨j, hj, ?_⟩
  split at made
  · rename_i mine
    subst made
    refine ⟨owner, fun live => ?_, fun _ => .inr ?_⟩
    · cases orphan.symm.trans live
    · simpa [Job.endsAtClose, Job.closesWith, mine, and_comm] using stays
  · rename_i other
    subst made
    exact ⟨owner, fun live => ⟨fun mine => other ⟨mine, orphan.symm.trans live⟩, same⟩,
      fun gone => .inl (orphan.symm.trans gone)⟩

theorem State.closePort_job (s : State) (p : Port) (cut : Bool) (i : SlotId) :
    (s.closePort p cut).job i = (s.closeJobs p cut).job i := by
  generalize hu : s.closeJobs p cut = u
  rw [State.closePort_eq s p cut hu]
  rfl

/-- R173: the record of each port after a close. -/
theorem State.closePort_port (s : State) (p : Port) (cut : Bool) (k : Port) :
    (s.closePort p cut).port k = if k = p then (s.port p).tornDown else s.port k := by
  generalize hu : s.closeJobs p cut = u
  rw [State.closePort_eq s p cut hu, State.modifyPort_port]
  rfl

theorem State.reset_port (p : Port) : State.reset.port p = HostPort.reset := by simp [State.port, State.reset]

theorem State.reset_noticeRoomLawful : State.reset.noticeRoomLawful := fun p => by
  have no_job : State.reset.countJobs (·.owner == p) = 0 :=
    List.countP_eq_zero.2 fun i _ => by simp [State.jobSatisfies, State.reset_job]
  simp [State.noticeSum, no_job, State.reset_port, HostPort.reset]

/-- R180: FULL_RESET leaves of the ports' own levels nothing that a session holds. -/
theorem State.HoldsLess.fullReset (s : State) (straps : BitVec 4) : State.reset.HoldsLess
    { State.reset with stn := straps, ports := s.ports.map HostPort.fullReset, pending := s.pending } := by
  refine .of_blocks rfl rfl rfl fun p => ?_
  have port : State.port
      { State.reset with stn := straps, ports := s.ports.map HostPort.fullReset, pending := s.pending } p =
      (s.port p).fullReset := by simp [State.port]
  rw [port, State.reset_port]
  exact ⟨rfl, rfl, rfl, rfl⟩

theorem State.JobStep.noticeRoomLawful (h : s.JobStep t) (hs : s.noticeRoomLawful) : t.noticeRoomLawful := by
  have kept (less : s.HoldsLess t) : t.noticeRoomLawful := hs.of_le less.room
  have same {u : State} (jobs : u.jobs = s.jobs)
      (notices : ∀ p, (u.port p).notices.length ≤ (s.port p).notices.length) : u.noticeRoomLawful :=
    hs.of_le fun p => State.noticeSum_le (fun i j hj => ⟨j, by rwa [State.job, jobs] at hj, rfl⟩) (notices p)
  cases h with
  | nothing => exact hs
  | reset straps =>
    exact State.reset_noticeRoomLawful.of_le (State.HoldsLess.fullReset s straps).room
  | frameStart i => exact kept (.frameStart s i)
  | frameEnd d => exact kept ((State.HoldsLess.stopDrive s).trans (.frameEnd _ _ _))
  | collided d => exact kept ((State.HoldsLess.stopDrive s).trans (.collided _ _))
  | rejoined i => exact kept ((State.HoldsLess.vacate s i).trans (.trans (.modifyJob _ i) (.joinHead _ i)))
  | ended i o => exact kept (.endJob s i o)
  | accepted p i x pr tag _ free room =>
    refine fun q => ((State.HoldsLess.joinTail _ i).room q).trans ?_
    have counted := s.countJobs_fillSlot (j := x.job p (s.port p).epoch pr tag) (fun y => y.owner == q) free
    have before := hs q
    simp only [State.noticeSum, State.fillSlot_port] at before ⊢
    rw [counted]
    by_cases mine : p = q
    · subst q
      simp only [State.noticeSum] at room
      split <;> omega
    · have other : ((x.job p (s.port p).epoch pr tag).owner == q) = false := by simpa [Submission.job] using mine
      rw [other]
      simpa using before
  | merged i j x pr tag => exact kept (.mergeInto s i j x pr tag)
  | subscribed => exact same rfl fun _ => Nat.le_refl _
  | ringPlaced p r =>
    refine same rfl fun k => ?_
    rw [State.replaceRing, State.attend_port]
    split
    · subst k; exact Nat.le_refl _
    · exact Nat.le_refl _
  | opened p =>
    refine same rfl fun k => ?_
    rw [State.openPort, State.attend_port]
    split
    · subst k
      change ((s.modifyPort p HostPort.opened).port p).notices.length ≤ _
      simp [HostPort.opened]
    · rename_i hk
      change ((s.modifyPort p HostPort.opened).port k).notices.length ≤ _
      rw [State.modifyPort_port_ne _ _ _ _ hk]
  | closed p cut r status body =>
    refine hs.of_le fun k => ((State.Beside.answer _ p r status body).holds.room k).trans ?_
    refine State.noticeSum_le (fun i j' hj' => ?_) ?_
    · rw [State.closePort_job] at hj'
      obtain ⟨j, hj, owner, _⟩ := State.closeJobs_job hj'
      exact ⟨j, hj, owner⟩
    · rw [State.closePort_port]
      split
      · exact Nat.zero_le _
      · exact Nat.le_refl _
  | deselected p =>
    refine same rfl fun k => ?_
    rw [State.modifyPort_port]
    split
    · subst k
      rw [(HostPort.deselect_held _).2.2.1]
    · exact Nat.le_refl _

end Sys2Proof.Machine

section
open Sys2Proof Sys2Proof.Machine

/-- Settles O54: the law holds of a step when it holds of each slot, and every change of `State.JobStep` takes one
slot out of its place and brings it to the place of its new state. -/
theorem jobsStandWhereTheirStateSays : Obligations.JobsStandWhereTheirStateSays := fun _ _ hs h =>
  step_keeps (fun _ _ beside hs => hs.congr beside.slots) (fun _ _ change hs => change.arbiterLawful hs) h hs

/-- Settles O58: a notice takes the room of the job that ended, and SUBMIT alone adds a job, where there is room. -/
theorem noticeRoomIsNeverExceeded : Obligations.NoticeRoomIsNeverExceeded := fun _ _ hs h =>
  step_keeps (fun _ _ beside hs => hs.of_le beside.holds.room) (fun _ _ change hs => change.noticeRoomLawful hs) h hs

end
end

section
/-! PROOFS. Sessions own what they hold (R44, R89, R171, R175): the law with an orphan's SENDING said of the drive, so
that it speaks of no job's state, and each change of `State.JobStep`. -/

-- The proofs run one after another, for the memory limit of the check.
set_option Elab.async false

namespace Sys2Proof.Machine

variable {s t : State}

/-! ### The law by the drive -/

/-- R171: where a job that is no orphan stands: in the open session of its owner, with its epoch. -/
def State.inSession (s : State) (j : Job) : Prop :=
  (s.port j.owner).isOpen = true ∧ j.epoch = (s.port j.owner).epoch

/-- R44, R89, R171, R175: what is held is held in an open session, and an orphan is driven. -/
structure State.Holdings (s : State) : Prop where
  request : ∀ p r, (s.port p).request = some r → r.kind.needsSession = true → (s.port p).isOpen = true
  entry   : ∀ e x, s.entry e = some x → (s.port x.owner).isOpen = true
  ring    : ∀ p, (s.ring p).isSome = true → (s.port p).isOpen = true
  notices : ∀ p, (s.port p).notices ≠ [] → (s.port p).isOpen = true
  job     : ∀ i j, s.job i = some j → j.orphan = false → s.inSession j
  orphan  : ∀ i j, s.job i = some j → j.orphan = true → s.driven i

/-- R68: where TX drives exactly the SENDING job, the two ways to speak of an orphan say the same. -/
theorem State.sessionsLawful_iff (hs : s.arbiterLawful) : s.sessionsLawful ↔ s.Holdings := by
  have sending {i : SlotId} {j : Job} (hj : s.job i = some j) : s.driven i ↔ j.state = .sending := by
    rw [← (State.arbiterLawful_iff.1 hs i).drives, State.jobIn_iff]
    exact ⟨fun ⟨k, hk, state⟩ => by cases hj.symm.trans hk; exact state, fun state => ⟨j, hj, state⟩⟩
  constructor
  · rintro ⟨request, entry, ring, notices, jobs⟩
    refine ⟨request, entry, ring, notices, fun i j hj live => ?_, fun i j hj gone => ?_⟩
    · have owned := jobs i j hj
      rwa [live] at owned
    · have state := jobs i j hj
      rw [if_pos gone] at state
      exact (sending hj).2 state
  · intro h
    refine ⟨h.request, h.entry, h.ring, h.notices, fun i j hj => ?_⟩
    split
    · exact (sending hj).1 (h.orphan i j hj ‹_›)
    · exact h.job i j hj (by simpa using ‹¬j.orphan = true›)

namespace State.Holdings

/-- A change by which sessions hold no more keeps the law, if it leaves the orphans driven. -/
theorem of_less (h : s.Holdings) (less : s.HoldsLess t)
    (orphan : ∀ i j, t.job i = some j → j.orphan = true → t.driven i) : t.Holdings where
  request := fun p r hr needs => (less.session p).1.trans (h.request p r (less.request p r hr) needs)
  entry := fun e x' hx' => by
    obtain ⟨x, hx, same⟩ := less.entry e x' hx'
    rw [same, (less.session _).1]
    exact h.entry e x hx
  ring := fun p hp => (less.session p).1.trans (h.ring p (less.ring p hp))
  notices := fun p held => by
    rw [(less.session p).1]
    obtain held | ⟨i, j, hj, live, rfl⟩ := less.notices p held
    · exact h.notices p held
    · exact (h.job i j hj live).1
  job := fun i j' hj' live => by
    obtain ⟨j, hj, same⟩ := less.job i j' hj'
    obtain ⟨owner, epoch, kept⟩ := Job.ownership_eq.1 same
    obtain ⟨isOpen, current⟩ := h.job i j hj (kept.symm.trans live)
    rw [State.inSession, owner, epoch, (less.session _).1, (less.session _).2]
    exact ⟨isOpen, current⟩
  orphan := orphan

/-- Such a change keeps the law if what was driven is driven. -/
theorem of_driven (h : s.Holdings) (less : s.HoldsLess t) (driven : ∀ i, s.driven i → t.driven i) : t.Holdings :=
  h.of_less less fun i j' hj' gone => by
    obtain ⟨j, hj, same⟩ := less.job i j' hj'
    exact driven i (h.orphan i j hj ((Job.ownership_eq.1 same).2.2.symm.trans gone))

/-- Such a change of jobs and arbiter alone keeps the law. -/
theorem of_tx (h : s.Holdings) (less : s.HoldsLess t) (tx : t.tx = s.tx) : t.Holdings :=
  h.of_driven less fun i driven => by rwa [State.driven, tx]

/-- R44: where an orphan's transmission is over, the orphan is gone. -/
theorem of_ended (h : s.Holdings) (less : s.HoldsLess t) {i : SlotId} (driven : ∀ k, s.driven k → k = i)
    (gone : ∀ j, s.job i = some j → j.orphan = true → t.job i = none) : t.Holdings :=
  h.of_less less fun k j' hj' orphan => by
    obtain ⟨j, hj, same⟩ := less.job k j' hj'
    have orphan := (Job.ownership_eq.1 same).2.2.symm.trans orphan
    obtain rfl := driven k (h.orphan k j hj orphan)
    cases (gone j hj orphan).symm.trans hj'

end State.Holdings

/-! ### Ends of a transmission -/

theorem State.endSilently_job_self (s : State) (i : SlotId) : (s.endSilently i).job i = none := by
  have dropped : (s.dropJob i).job i = none := State.freeSlot_job_self _ i
  unfold State.endSilently
  split
  · rw [Option.eq_none_iff_forall_ne_some]
    intro j' hj'
    obtain ⟨j, hj, _⟩ := (State.HoldsLess.select _).job i j' hj'
    cases dropped.symm.trans hj
  · exact dropped

/-- R76: an orphan is gone at its frame end. -/
theorem State.frameEnd_orphan {i : SlotId} {j : Job} (hj : s.job i = some j) (orphan : j.orphan = true) (form : Form) :
    (s.frameEnd i form).job i = none := by
  simp only [State.frameEnd, hj, orphan, if_true]
  exact State.endSilently_job_self _ i

/-- R79: an orphan is gone at its collision. -/
theorem State.collided_orphan {i : SlotId} {j : Job} (hj : s.job i = some j) (orphan : j.orphan = true) :
    (s.collided i).job i = none := by
  simp only [State.collided, hj, orphan, if_true]
  exact State.endSilently_job_self _ i

/-! ### The changes -/

/-- A port that asks in a session has one. -/
theorem State.Holdings.asking (h : s.Holdings) {p : Port} (asks : s.asksInSession p) : (s.port p).isOpen = true := by
  obtain ⟨r, pending, needs⟩ := asks
  exact h.request p r pending needs

/-- R172: the record of each port after an OPEN. -/
theorem State.openPort_port (s : State) (p k : Port) :
    ((s.openPort p).port k).isOpen = (if k = p then true else (s.port k).isOpen) ∧
      ((s.openPort p).port k).request = (s.port k).request ∧ (k ≠ p → (s.openPort p).port k = s.port k) := by
  rw [State.openPort, State.attend_port]
  split
  · subst k
    change ((s.modifyPort p HostPort.opened).port p).isOpen = _ ∧
      ((s.modifyPort p HostPort.opened).port p).request = _ ∧ _
    rw [State.modifyPort_port_self]
    exact ⟨rfl, rfl, fun h => absurd rfl h⟩
  · rename_i hk
    exact ⟨congrArg HostPort.isOpen (State.modifyPort_port_ne s p k _ hk),
      congrArg HostPort.request (State.modifyPort_port_ne s p k _ hk), fun _ => State.modifyPort_port_ne s p k _ hk⟩

/-- R172: an OPEN of a port that has no session, and so holds no job. -/
theorem State.Holdings.openPort (h : s.Holdings) {p : Port} (isClosed : (s.port p).isOpen = false) :
    (s.openPort p).Holdings := by
  have isOpen {k : Port} (was : (s.port k).isOpen = true) : ((s.openPort p).port k).isOpen = true := by
    rw [(s.openPort_port p k).1]
    split
    · rfl
    · exact was
  refine ⟨fun k r hr needs => ?_, fun e x hx => isOpen (h.entry e x hx), fun k hk => isOpen (h.ring k hk),
    fun k held => ?_, fun i j hj live => ?_, h.orphan⟩
  · rw [(s.openPort_port p k).2.1] at hr
    exact isOpen (h.request k r hr needs)
  · obtain ⟨now, _, other⟩ := s.openPort_port p k
    by_cases hk : k = p
    · rw [now, if_pos hk]
    · rw [other hk] at held ⊢
      exact h.notices k held
  · obtain ⟨was, epoch⟩ := h.job i j hj live
    have other : j.owner ≠ p := fun mine => by rw [mine, isClosed] at was; cases was
    rw [State.inSession, (s.openPort_port p j.owner).2.2 other]
    exact ⟨was, epoch⟩

/-- R44, R83: an orphan is driven after a close as before it. -/
theorem State.Holdings.closeJobs_driven (h : s.Holdings) (hs : s.arbiterLawful) {p : Port} {cut : Bool} {i : SlotId}
    {j' : Job} (hj' : (s.closeJobs p cut).job i = some j') (gone : j'.orphan = true) :
    (s.closeJobs p cut).driven i := by
  have sends {k : SlotId} {x : Job} (hx : s.job k = some x) (sending : x.state = .sending) : s.driven k :=
    (State.arbiterLawful_iff.1 hs k).drives.1 (State.jobIn_iff.2 ⟨x, hx, sending⟩)
  obtain ⟨j, hj, _, _, was⟩ := State.closeJobs_job hj'
  have driven : s.driven i := by
    obtain orphan | ⟨sending, _⟩ := was gone
    · exact h.orphan i j hj orphan
    · exact sends hj sending
  have stays : (cut && s.portSending p) = false := by
    rw [Bool.eq_false_iff]
    intro stops
    obtain ⟨cuts, sending⟩ := Bool.and_eq_true_iff.1 stops
    obtain ⟨k, x, hx, _, live, sending⟩ := (s.portSending_iff p).1 sending
    obtain ⟨d, hd, rfl⟩ := driven
    obtain ⟨d', hd', rfl⟩ := sends hx sending
    cases hd.symm.trans hd'
    cases hj.symm.trans hx
    obtain orphan | ⟨_, cutless⟩ := was gone
    · cases live.symm.trans orphan
    · cases cuts.symm.trans cutless
  have tx := (s.closeJobs_drive p cut).1
  rw [(s.closeSlots_drive p cut).1, stays] at tx
  rwa [State.driven, tx]

/-- R142, R157, R173: the entries, the rings and the drive after a close. -/
theorem State.closePort_rest (s : State) (p : Port) (cut : Bool) :
    (∀ e, (s.closePort p cut).entry e = (s.entry e).filter fun x => x.owner != p) ∧
      (∀ k, (s.closePort p cut).ring k = if k = p then none else s.ring k) ∧
      (s.closePort p cut).tx = (s.closeJobs p cut).tx := by
  generalize hu : s.closeJobs p cut = u
  rw [State.closePort_eq s p cut hu]
  refine ⟨fun e => by simp [State.entry, State.entriesFreed], fun k => ?_, rfl⟩
  change (s.setRing p none).ring k = _
  split
  · subst k; exact State.setRing_ring_self s p none
  · exact State.setRing_ring_ne s p k none ‹_›

/-- R173: an answered CLOSE leaves the port nothing to hold. -/
theorem State.Holdings.closePort (h : s.Holdings) (hs : s.arbiterLawful) (p : Port) (cut : Bool) (r : Request)
    (status : Status) (body : List Byte) :
    ((s.closePort p cut).modifyPort p fun h => h.answer r status body).Holdings := by
  obtain ⟨entries, rings, tx⟩ := s.closePort_rest p cut
  have port (k : Port) : ((s.closePort p cut).modifyPort p fun h => h.answer r status body).port k =
      if k = p then (s.port p).tornDown.answer r status body else s.port k := by
    rw [State.modifyPort_port, State.closePort_port, State.closePort_port]
    split <;> simp
  have isOpen {k : Port} (hk : k ≠ p) (was : (s.port k).isOpen = true) :
      (((s.closePort p cut).modifyPort p fun h => h.answer r status body).port k).isOpen = true := by
    rwa [port, if_neg hk]
  refine ⟨fun k q hq needs => ?_, fun e x hx => ?_, fun k hk => ?_, fun k held => ?_, fun i j' hj' live => ?_,
    fun i j' hj' gone => ?_⟩
  · rw [port] at hq ⊢
    split at hq
    · cases hq
    · rw [if_neg ‹_›]; exact h.request k q hq needs
  · rw [State.modifyPort_entry, entries] at hx
    obtain ⟨hx, other⟩ := Option.filter_eq_some_iff.1 hx
    exact isOpen (by simpa using other) (h.entry e x hx)
  · rw [State.modifyPort_ring, rings] at hk
    split at hk
    · cases hk
    · exact isOpen ‹_› (h.ring k hk)
  · rw [port] at held ⊢
    split at held
    · exact absurd rfl held
    · rw [if_neg ‹_›]; exact h.notices k held
  · rw [State.modifyPort_job, State.closePort_job] at hj'
    obtain ⟨j, hj, owner, kept, _⟩ := State.closeJobs_job hj'
    obtain ⟨other, same⟩ := kept live
    obtain ⟨_, epoch, orphan⟩ := Job.ownership_eq.1 same
    rw [State.inSession, owner, epoch, port, if_neg other]
    exact h.job i j hj (orphan.symm.trans live)
  · rw [State.modifyPort_job, State.closePort_job] at hj'
    rw [State.driven, State.modifyPort_tx, tx]
    exact h.closeJobs_driven hs hj' gone

theorem State.mergeInto_tx (i : SlotId) (j : Job) (x : Submission) (pr : Profile) (tag : Byte) :
    (s.mergeInto i j x pr tag).tx = s.tx := by
  unfold State.mergeInto
  dsimp only
  split
  · split <;> rfl
  · exact (State.OnlyArbiter.joinTail _ i).drive.1

theorem State.reset_holdings : State.reset.Holdings where
  request := fun p r hr => by rw [State.reset_port] at hr; cases hr
  entry := fun e x hx => by simp [State.entry, State.reset] at hx
  ring := fun p hp => by simp [State.ring, State.reset] at hp
  notices := fun p held => by rw [State.reset_port] at held; exact absurd rfl held
  job := fun i j hj => by cases (State.reset_job i).symm.trans hj
  orphan := fun i j hj => by cases (State.reset_job i).symm.trans hj

theorem State.JobStep.holdings (h : s.JobStep t) (hs : s.arbiterLawful) (hh : s.Holdings) : t.Holdings := by
  have only {d : Drive} (driving : s.tx.drive = some d) (k : SlotId) (driven : s.driven k) : k = d.slot := by
    obtain ⟨d', hd', rfl⟩ := driven
    rw [Option.some.inj (driving.symm.trans hd')]
  cases h with
  | nothing => exact hh
  | reset straps =>
    exact State.reset_holdings.of_tx (.fullReset s straps) rfl
  | frameStart i start =>
    exact hh.of_driven (.frameStart s i) fun k driven => absurd driven (hs.undriven start k)
  | frameEnd d driving =>
    exact hh.of_ended ((State.HoldsLess.stopDrive s).trans (.frameEnd _ _ _)) (only driving)
      fun j hj orphan => State.frameEnd_orphan (s := s.stopDrive) hj orphan d.form
  | collided d driving =>
    exact hh.of_ended ((State.HoldsLess.stopDrive s).trans (.collided _ _)) (only driving)
      fun j hj orphan => State.collided_orphan (s := s.stopDrive) hj orphan
  | rejoined i =>
    exact hh.of_tx ((State.HoldsLess.vacate s i).trans (.trans (.modifyJob _ i) (.joinHead _ i)))
      (State.OnlyArbiter.joinHead _ i).drive.1
  | ended i o => exact hh.of_tx (.endJob s i o) (by rw [(s.endJob_rest i o).1])
  | merged i j x pr tag => exact hh.of_tx (.mergeInto s i j x pr tag) (s.mergeInto_tx i j x pr tag)
  | accepted p i x pr tag asks free room =>
    have filled : (s.fillSlot i (x.job p (s.port p).epoch pr tag)).Holdings := by
      refine ⟨hh.request, hh.entry, hh.ring, hh.notices, fun k j hj live => ?_, fun k j hj gone => ?_⟩
      all_goals
        rw [State.fillSlot_job] at hj
        split at hj
      · cases hj; exact ⟨hh.asking asks, rfl⟩
      · exact hh.job k j hj live
      · cases hj; cases gone
      · exact hh.orphan k j hj gone
    exact filled.of_tx (.joinTail _ i) (State.OnlyArbiter.joinTail _ i).drive.1
  | subscribed p e x asks owner =>
    refine { hh with entry := fun k y hy => ?_ }
    by_cases hk : k = e
    · subst k
      rw [State.setEntry_entry_self] at hy
      cases hy
      exact owner ▸ hh.asking asks
    · rw [State.setEntry_entry_ne _ _ _ _ hk] at hy
      exact hh.entry k y hy
  | ringPlaced p r asks =>
    have placed (m : List Host.Cell) : (({ s with mem := m } : State).setRing p r).Holdings :=
      { hh with
        ring := fun k hk => by
          by_cases same : k = p
          · subst k; exact hh.asking asks
          · rw [State.setRing_ring_ne _ _ _ _ same] at hk; exact hh.ring k hk }
    exact (placed _).of_tx (.attend _ p) rfl
  | opened p isClosed => exact hh.openPort isClosed
  | closed p cut r status body => exact hh.closePort hs p cut r status body
  | deselected p =>
    obtain ⟨isOpen, epoch, notices, request⟩ := (s.port p).deselect_held
    have port (k : Port) : ((s.modifyPort p HostPort.deselect).port k).isOpen = (s.port k).isOpen ∧
        ((s.modifyPort p HostPort.deselect).port k).epoch = (s.port k).epoch ∧
        ((s.modifyPort p HostPort.deselect).port k).notices = (s.port k).notices := by
      rw [State.modifyPort_port]
      split
      · subst k; exact ⟨isOpen, epoch, notices⟩
      · exact ⟨rfl, rfl, rfl⟩
    refine ⟨fun k r hr needs => ?_, fun e x hx => (port _).1.trans (hh.entry e x hx),
      fun k hk => (port k).1.trans (hh.ring k hk), fun k held => (port k).1.trans (hh.notices k ((port k).2.2 ▸ held)),
      fun i j hj live => ?_, hh.orphan⟩
    · rw [(port k).1]
      rw [State.modifyPort_port] at hr
      split at hr
      · subst k
        obtain before | session := request r hr
        · exact hh.request p r before needs
        · exact session needs
      · exact hh.request k r hr needs
    · rw [State.inSession, (port _).1, (port _).2.1]
      exact hh.job i j hj live

end Sys2Proof.Machine

section
open Sys2Proof Sys2Proof.Machine

/-- Settles O60: with the places lawful an orphan is SENDING where TX drives it; both laws are kept together. -/
theorem sessionsOwnWhatTheyHold : Obligations.SessionsOwnWhatTheyHold := by
  intro s t places sessions h
  obtain ⟨places', holdings⟩ := step_keeps (law := fun s => s.arbiterLawful ∧ s.Holdings)
    (fun _ _ beside ⟨places, holdings⟩ => ⟨places.congr beside.slots,
      holdings.of_driven beside.holds fun i => (beside.slots i).drive.2⟩)
    (fun _ _ change ⟨places, holdings⟩ => ⟨change.arbiterLawful places, change.holdings places holdings⟩) h
    ⟨places, (State.sessionsLawful_iff places).1 sessions⟩
  exact (State.sessionsLawful_iff places').2 holdings

end
end

section
/-! PROOFS. The job table's timers (R39 to R41, R81, R95, R97), joins and gaps (R38, R54, R56, R59, R62), the handle
checks (R42), and the laws in the state after full reset. -/

-- The proofs run one after another, for the memory limit of the check.
set_option Elab.async false

namespace Sys2Proof.Machine

variable {s : State} {i : SlotId} {j : Job}

/-! ### Full reset -/

theorem State.reset_stackLawful : State.reset.stackLawful := by
  have gap (i : SlotId) : State.reset.jobIn i .gap ≠ true := fun h => by
    obtain ⟨j, hj, _⟩ := State.jobIn_iff.1 h
    cases (State.reset_job i).symm.trans hj
  refine ⟨.nil, fun i hi => (nomatch hi), fun i hi => (nomatch hi), fun i h => ?_⟩
  obtain candidate | h := h
  · cases candidate
  · exact absurd h (gap i)

theorem State.reset_selectionLawful : State.reset.selectionLawful :=
  fun _ => ⟨rfl, fun c => by simp [State.reset, Arbiter.reset]⟩

theorem State.reset_ringsLawful : State.reset.ringsLawful := by
  have undefined (p : Port) : State.reset.ring p = none := by simp [State.ring, State.reset]
  exact ⟨fun p _ hr => (nomatch (undefined p).symm.trans hr), fun p _ _ _ _ hr => (nomatch (undefined p).symm.trans hr)⟩

theorem State.reset_attentionLawful : State.reset.attentionLawful := fun p => by
  simp [State.attentionDue, State.reset_port, HostPort.reset]

theorem State.reset_portsLawful : State.reset.portsLawful := fun p => by
  rw [State.reset_port]
  exact ⟨by simp [HostPort.reset], by simp [HostPort.inTransaction, HostPort.reset], by simp [HostPort.reset]⟩

theorem State.reset_responsesLawful : State.reset.responsesLawful := fun p r hr => by
  rw [State.reset_port] at hr
  cases hr

/-! ### Timers -/

theorem Timer.due_iff {t : Timer} : t.due = true ↔ t = some 0 := by simp [Timer.due]

/-- A test of a live job's record. -/
theorem State.jobSatisfies_of_job (hj : s.job i = some j) (test : Job → Bool) : s.jobSatisfies test i = test j := by
  simp [State.jobSatisfies, hj]

theorem State.jobSatisfies_free (free : s.job i = none) (test : Job → Bool) : s.jobSatisfies test i = false := by
  simp [State.jobSatisfies, free]

theorem execBackoffExpiry_due (hj : s.job i = some j) (state : j.state = .backoff) (due : j.backoffTimer = some 0) :
    execBackoffExpiry i s =
      .next (State.joinHead ((s.vacate i).modifyJob i fun x => { x with backoffTimer := none }) i) := by
  refine if_pos ?_
  rw [State.jobSatisfies_of_job hj, Bool.and_eq_true, Timer.due_iff]
  exact ⟨by simp [state], due⟩

theorem execBackoffExpiry_early (hj : s.job i = some j) (early : j.backoffTimer ≠ some 0) :
    execBackoffExpiry i s = .next s := by
  refine if_neg fun h => early ?_
  rw [State.jobSatisfies_of_job hj, Bool.and_eq_true, Timer.due_iff] at h
  exact h.2

theorem execDeadlineExpiry_of_job (hj : s.job i = some j) : execDeadlineExpiry i s =
    if j.deadlineTimer = some 0 then .next (s.endJob i .expired) else .next s := by
  simp only [execDeadlineExpiry, State.jobSatisfies_of_job hj, Timer.due_iff]

theorem execLeaseExpiry_of_job (hj : s.job i = some j) : execLeaseExpiry i s =
    if j.leaseTimer = some 0 then
      if j.state = .sending then .next (s.modifyJob i Job.lapseSending) else .next (s.endJob i .lapsed)
    else .next s := by
  simp only [execLeaseExpiry, State.jobIn, State.jobSatisfies_of_job hj, Timer.due_iff, beq_iff_eq]

/-- R95: a pending release stands; otherwise the lapse is pending. -/
theorem Job.lapseSending_eq (j : Job) : j.lapseSending = { j with
    leaseTimer := none
    endPending := if j.endPending = some .released then some .released else some .lapsed } := by
  unfold Job.lapseSending
  cases j.endPending with
  | none => rfl
  | some e => cases e <;> rfl

theorem timerExpiry_free (free : s.job i = none) :
    execBackoffExpiry i s = .next s ∧ execDeadlineExpiry i s = .next s ∧ execLeaseExpiry i s = .next s := by
  simp [execBackoffExpiry, execDeadlineExpiry, execLeaseExpiry, State.jobSatisfies_free free]

/-! ### Joins and gaps -/

/-- R54, R62: a join before a candidate. -/
theorem State.reactToJoin_candidate {k : SlotId} {x : Job} {o : Origin} (candidate : s.la.position = .candidate k o)
    (hx : s.job k = some x) (c : Class) :
    s.reactToJoin c = if x.cls < c then (s.displace k o).select else s := by
  simp only [State.reactToJoin, candidate, State.jobClass_of_job hx]

/-- R59, R62: a join before a holder. -/
theorem State.reactToJoin_holder {k : SlotId} {x : Job} (holder : s.la.position = .holder k) (hx : s.job k = some x)
    (c : Class) : s.reactToJoin c = if x.state = .gap ∧ x.cls < c then s.preempt k else s := by
  simp only [State.reactToJoin, holder, State.jobClass_of_job hx, State.jobIn, State.jobSatisfies_of_job hx,
    Bool.and_eq_true, beq_iff_eq, decide_eq_true_eq]

/-- R56, R59: a job of a class above c waits. -/
theorem Arbiter.queuedAbove_iff {a : Arbiter} {c : Class} :
    a.queuedAbove c = true ↔ ∃ q : Class, c < q ∧ a.queues[q] ≠ [] := by
  simp [Arbiter.queuedAbove, allClasses]

/-- A job's state is replaced, whatever it was. -/
theorem State.modifyJob_gap_suspend (s : State) (i : SlotId) (a : Arbiter) :
    State.modifyJob { s.modifyJob i fun x => { x with state := .gap } with la := a } i
        (fun x => { x with state := .suspended, resumeFull := true }) =
      State.modifyJob { s with la := a } i fun x => { x with state := .suspended, resumeFull := true } := by
  simp [State.modifyJob, Function.comp_def]

/-- R56: the holder that enters GAP. -/
theorem State.enterGap_eq {pr : Profile} (hj : s.job i = some j) (hp : s.profile j.profile = some pr) :
    s.enterGap i = if s.la.queuedAbove j.cls then
        ({ s with la := (s.la.without i).pushStack i }.modifyJob i
          fun x => { x with state := .suspended, resumeFull := true }).select
      else { s with la := { s.la with guard := some { count := 0, target := pr.guardUs } } }.modifyJob i
        fun x => { x with state := .gap } := by
  have gap : (s.modifyJob i fun x => { x with state := .gap }).job i = some { j with state := .gap } := by simp [hj]
  have target : (s.modifyJob i fun x => { x with state := .gap }).guardTarget i = pr.guardUs := by
    simp [State.guardTarget, State.jobProfile, gap, hp]
  rw [State.enterGap, State.jobClass_of_job gap, State.startGuard, target, State.preempt, State.modifyJob_la,
    State.modifyJob_gap_suspend]
  rfl

/-! ### Handles -/

/-- R42: a handle that names no job of the port is refused, with nothing changed. -/
theorem State.withHandle_refuses (s : State) (p : Port) (slot ticket : Byte) (f : SlotId → Job → Reply) :
    ((¬∃ i j, Claims.names s slot ticket i j) → s.withHandle p [slot, ticket] f = Reply.refuse s .noJob) ∧
      ∀ i j, Claims.names s slot ticket i j → j.owner ≠ p →
        s.withHandle p [slot, ticket] f = Reply.refuse s .notOwner := by
  refine ⟨fun no_job => ?_, fun i j names other => ?_⟩
  · have none : s.handleJob [slot, ticket] = none := by
      rw [Option.eq_none_iff_forall_ne_some]
      rintro ⟨i, j⟩ named
      exact no_job ⟨i, j, State.handleJob_eq_some.1 named⟩
    simp only [State.withHandle, none]
  · simp only [State.withHandle, State.handleJob_eq_some.2 names, if_neg other]

/-- R42: a request with a handle of the caller's job. -/
theorem State.withHandle_names {p : Port} {slot ticket : Byte} (names : Claims.names s slot ticket i j)
    (owner : j.owner = p) (f : SlotId → Job → Reply) : s.withHandle p [slot, ticket] f = f i j := by
  simp only [State.withHandle, State.handleJob_eq_some.2 names, if_pos owner]

/-- R42: a request whose handler checks a handle answers the refusal. -/
theorem State.takeRequest_handle {k : RequestKind} {p : Port} {tag slot ticket : Byte}
    {handler : Request → State → Reply} {f : SlotId → Job → Reply} (asks : s.asks p k tag [slot, ticket])
    (checks : handler ⟨k, tag, [slot, ticket]⟩ s = s.withHandle p [slot, ticket] f) :
    ((¬∃ i j, Claims.names s slot ticket i j) → s.takeRequest k p handler = .next (s.answered p k tag .noJob [])) ∧
      ∀ i j, Claims.names s slot ticket i j → j.owner ≠ p →
        s.takeRequest k p handler = .next (s.answered p k tag .notOwner []) := by
  obtain ⟨noJob, notOwner⟩ := s.withHandle_refuses p slot ticket f
  rw [State.takeRequest_asks _ asks, checks]
  exact ⟨fun h => by rw [noJob h]; rfl, fun i j names other => by rw [notOwner i j names other]; rfl⟩

end Sys2Proof.Machine

section
open Sys2Proof Sys2Proof.Machine

/-- Settles O5, law by law. -/
theorem resetStateIsLawful : Obligations.ResetStateIsLawful :=
  ⟨rfl, State.reset_arbiterLawful, State.reset_stackLawful, State.reset_selectionLawful,
    State.referencesLawful_reset 0 State.reset, State.reset_ringsLawful, State.reset_noticeRoomLawful,
    State.reset_attentionLawful, State.reset_portsLawful, State.reset_responsesLawful,
    (State.sessionsLawful_iff State.reset_arbiterLawful).2 State.reset_holdings⟩

/-- Settles O24, timer by timer. -/
theorem jobTimersExpire : Obligations.JobTimersExpire := by
  refine ⟨fun s i j hj => ⟨fun state due => execBackoffExpiry_due hj state due,
    fun early => execBackoffExpiry_early hj early, fun due => ?_, fun early => ?_, fun due quiet => ?_,
    fun due sending => ?_, fun early => ?_⟩, fun s i free => timerExpiry_free free⟩
  · exact (execDeadlineExpiry_of_job hj).trans (if_pos due)
  · exact (execDeadlineExpiry_of_job hj).trans (if_neg early)
  · exact (execLeaseExpiry_of_job hj).trans ((if_pos due).trans (if_neg quiet))
  · refine (execLeaseExpiry_of_job hj).trans ((if_pos due).trans ((if_pos sending).trans ?_))
    exact congrArg _ (State.modifyJob_congr hj j.lapseSending_eq)
  · exact (execLeaseExpiry_of_job hj).trans (if_neg early)

/-- Settles O26, by what stands in the line position. -/
theorem joinsAndGapsReactToUrgency : Obligations.JoinsAndGapsReactToUrgency := by
  intro s i j hj
  dsimp only
  have cls := State.jobClass_of_job hj
  refine ⟨by rw [State.joinTail, cls]; rfl, by rw [State.joinHead, cls]; rfl,
    fun empty => by simp only [State.reactToJoin, empty], fun k x o candidate hx => ?_, fun k x holder hx => ?_,
    fun pr hp => ?_⟩
  · rw [State.reactToJoin_candidate candidate hx]
    refine ⟨fun le => if_neg (not_lt.2 le), fun lt origin => (if_pos lt).trans ?_,
      fun lt origin => (if_pos lt).trans ?_⟩
    · rw [origin, State.displace, State.jobClass_of_job hx]
    · rw [origin]; rfl
  · rw [State.reactToJoin_holder holder hx]
    refine ⟨fun sending => if_neg (by simp [sending]), fun _ le => if_neg fun h => not_lt.2 le h.2,
      fun gap lt => (if_pos ⟨gap, lt⟩).trans rfl⟩
  · rw [State.enterGap_eq hj hp]
    refine ⟨fun none => if_neg fun above => ?_, fun above => (if_pos (Arbiter.queuedAbove_iff.2 above)).trans rfl⟩
    obtain ⟨q, lt, waits⟩ := Arbiter.queuedAbove_iff.1 above
    exact waits (none q lt)

/-- Settles O37: the four requests check their handle in one way. -/
theorem handleCheckedBeforeRequest : Obligations.HandleCheckedBeforeRequest := by
  intro s p k c tag slot ticket command asks
  cases k with
  | keep | release | cancel | jobQuery => cases command; exact State.takeRequest_handle asks rfl
  | _ => cases command

end
end

section
/-! PROOFS. SUBMIT (R21, R22, R27 to R37, R183): reading its body, the searches of the table, and the record that a
merge or an allocation makes. -/

-- The proofs run one after another, for the memory limit of the check.
set_option Elab.async false

namespace Sys2Proof.Machine

/-! ### The fields of a body -/

theorem finOf_eq_some {n k : Nat} {i : Fin n} : finOf n k = some i ↔ k = i.val := by
  unfold finOf
  split
  · simp [Fin.ext_iff]
  · simp only [reduceCtorEq, false_iff]; omega

theorem JobKind.ofCode_eq_some {n : Nat} {k : JobKind} (h : JobKind.ofCode n = some k) :
    n ≤ 2 ∧ (k = .burst ↔ n = 1) ∧ (k = .held ↔ n = 2) := by
  match n with
  | 0 | 1 | 2 => cases h; simp
  | n + 3 => cases h

theorem JobKind.ofCode_code (k : JobKind) : JobKind.ofCode k.code.toNat = some k := by cases k <;> rfl

/-- R182, R183: an optional byte whose range excludes 0 reads as it was written. -/
theorem absentZero_byte {o : Option Nat} (h : ∀ n, o = some n → 1 ≤ n ∧ n ≤ 255) :
    absentZero (BitVec.ofNat 8 (o.getD 0)).toNat = o := by
  cases o with
  | none => rfl
  | some n =>
    obtain ⟨low, high⟩ := h n rfl
    have same : (BitVec.ofNat 8 n).toNat = n := by simp; omega
    simp only [Option.getD_some, same, absentZero]
    exact if_neg (by omega)

/-- R181, R183: and so does an optional two-byte field. -/
theorem absentZero_word {o : Option Nat} (h : ∀ n, o = some n → 1 ≤ n ∧ n ≤ 65535) :
    absentZero ((BitVec.ofNat 8 (o.getD 0)).toNat + 256 * (BitVec.ofNat 8 (o.getD 0 / 256)).toNat) = o := by
  cases o with
  | none => rfl
  | some n =>
    obtain ⟨low, high⟩ := h n rfl
    have same : (BitVec.ofNat 8 n).toNat + 256 * (BitVec.ofNat 8 (n / 256)).toNat = n := by simp; omega
    simp only [Option.getD_some, same, absentZero]
    exact if_neg (by omega)

/-- R28: an optional field in its range, read from a number. -/
theorem absentOr_absentZero {low high n : Nat} :
    absentOr low high (absentZero n) = true ↔ n = 0 ∨ (low ≤ n ∧ n ≤ high) := by
  by_cases zero : n = 0
  · simp [absentZero, absentOr, zero]
  · simp [absentZero, absentOr, zero]

theorem absentZero_isSome {n : Nat} : (absentZero n).isSome = true ↔ n ≠ 0 := by
  unfold absentZero
  split <;> simp_all

theorem absentZero_isNone {n : Nat} : (absentZero n).isNone = true ↔ n = 0 := by
  unfold absentZero
  split <;> simp_all

/-- R28: the ranges of a submission, field by field. -/
theorem Submission.inRange_iff (x : Submission) : x.inRange = true ↔
    (if x.kind = .burst then x.burstCount.isSome = true ∧ absentOr 2 255 x.burstCount = true
      else x.burstCount.isNone = true) ∧
    (if x.kind = .held then x.lease.isSome = true ∧ absentOr 1 255 x.lease = true else x.lease.isNone = true) ∧
    absentOr 1 60000 x.deadlineMs = true ∧ absentOr 1 15 x.attemptLimit = true ∧ x.data.length ≤ 6 := by
  unfold Submission.inRange
  split <;> split <;> simp [and_assoc]

/-- R28, R183: the bytes of a body that reads as a submission lie in their ranges. -/
theorem submissionOfBody_bounds {b : List Byte} {x : Submission} (h : submissionOfBody b = some x) :
    bodyNat b 1 ≤ 3 ∧ bodyNat b 2 ≤ 2 ∧ bodyNat b 4 ≤ 3 ∧
      (if bodyNat b 2 = 1 then 2 ≤ bodyNat b 3 else bodyNat b 3 = 0) ∧
      (if bodyNat b 2 = 2 then bodyNat b 8 ≠ 0 else bodyNat b 8 = 0) ∧
      bodyNat b 6 + 256 * bodyNat b 7 ≤ 60000 ∧ bodyNat b 9 ≤ 15 ∧ bodyNat b 10 = b.length - 11 ∧
      bodyNat b 10 ≤ 6 := by
  unfold submissionOfBody at h
  obtain ⟨cls, hcls, h⟩ := Option.bind_eq_some_iff.1 h
  obtain ⟨kind, hkind, h⟩ := Option.bind_eq_some_iff.1 h
  obtain ⟨profile, hprofile, h⟩ := Option.bind_eq_some_iff.1 h
  dsimp only at h
  split at h
  case isFalse => cases h
  rename_i ranges
  obtain ⟨length, ranges⟩ := ranges
  obtain ⟨burst, lease, deadline, attempts, data⟩ := (Submission.inRange_iff _).1 ranges
  dsimp only at length burst lease deadline attempts data
  obtain ⟨kinds, isBurst, isHeld⟩ := JobKind.ofCode_eq_some hkind
  have hcls := finOf_eq_some.1 hcls
  have hprofile := finOf_eq_some.1 hprofile
  simp only [isBurst, isHeld, absentZero_isSome, absentZero_isNone, absentOr_absentZero, List.length_drop, bodyNat16,
    Nat.reduceAdd] at burst lease deadline attempts data length
  refine ⟨by omega, kinds, by omega, ?_, ?_, by omega, by omega, length, by omega⟩
  · split at burst <;> split <;> omega
  · split at lease <;> split <;> omega

/-- R28, R183: a submission in its ranges is read back from the body that spells it. -/
theorem submissionOfBody_submitBody {x : Submission} {kind : Byte} (h : Claims.submissionInRange x kind) :
    submissionOfBody (Claims.submitBody x kind) = some x := by
  obtain ⟨kinds, deadline, attempts, data⟩ := h
  have code : kind = x.kind.code := by
    obtain ⟨h, rfl, _⟩ | ⟨h, rfl, _⟩ | ⟨h, rfl, _⟩ := kinds <;> rw [h] <;> rfl
  have burst : ∀ n, x.burstCount = some n → 1 ≤ n ∧ n ≤ 255 := by
    intro n hn
    obtain ⟨_, _, absent, _⟩ | ⟨_, _, ⟨m, hm, low, high⟩, _⟩ | ⟨_, _, absent, _⟩ := kinds
    · cases absent.symm.trans hn
    · cases hm.symm.trans hn; omega
    · cases absent.symm.trans hn
  have lease : ∀ n, x.lease = some n → 1 ≤ n ∧ n ≤ 255 := by
    intro n hn
    obtain ⟨_, _, _, absent⟩ | ⟨_, _, _, absent⟩ | ⟨_, _, _, m, hm, low, high⟩ := kinds
    · cases absent.symm.trans hn
    · cases absent.symm.trans hn
    · cases hm.symm.trans hn; omega
  have ranges : x.inRange = true := by
    refine (Submission.inRange_iff x).2 ⟨?_, ?_, ?_, ?_, data⟩
    · obtain ⟨kind, _, absent, _⟩ | ⟨kind, _, ⟨m, hm, range⟩, _⟩ | ⟨kind, _, absent, _⟩ := kinds
      · simp [kind, absent]
      · simp [kind, hm, absentOr, range]
      · simp [kind, absent]
    · obtain ⟨kind, _, _, absent⟩ | ⟨kind, _, _, absent⟩ | ⟨kind, _, _, m, hm, range⟩ := kinds
      · simp [kind, absent]
      · simp [kind, absent]
      · simp [kind, hm, absentOr, range]
    · cases hd : x.deadlineMs with
      | none => rfl
      | some n => simpa [absentOr] using deadline n hd
    · cases ha : x.attemptLimit with
      | none => rfl
      | some n => simpa [absentOr] using attempts n ha
  have count : (BitVec.ofNat 8 x.data.length).toNat = x.data.length := by simp; omega
  have hcls : finOf 4 (bodyNat (Claims.submitBody x kind) 1) = some x.cls := finOf_val x.cls (by omega)
  have hkind : JobKind.ofCode (bodyNat (Claims.submitBody x kind) 2) = some x.kind := by
    rw [code]; exact x.kind.ofCode_code
  have hprofile : finOf 4 (bodyNat (Claims.submitBody x kind) 4) = some x.profile := finOf_val x.profile (by omega)
  have hburst : absentZero (bodyNat (Claims.submitBody x kind) 3) = x.burstCount := absentZero_byte burst
  have hdeadline : absentZero (bodyNat16 (Claims.submitBody x kind) 6) = x.deadlineMs :=
    absentZero_word fun n hn => by have := deadline n hn; omega
  have hlease : absentZero (bodyNat (Claims.submitBody x kind) 8) = x.lease := absentZero_byte lease
  have hattempts : absentZero (bodyNat (Claims.submitBody x kind) 9) = x.attemptLimit :=
    absentZero_byte fun n hn => by have := attempts n hn; omega
  have hdata : (Claims.submitBody x kind).drop 11 = x.data := rfl
  have hcount : bodyNat (Claims.submitBody x kind) 10 = x.data.length := count
  simp only [submissionOfBody, hcls, hkind, hprofile, Option.bind_eq_bind, Option.bind_some, hburst, hdeadline, hlease,
    hattempts, hdata, hcount]
  exact if_pos ⟨trivial, ranges⟩

/-- R40: only a HELD submission has a lease, so its timer is the lease's in every kind. -/
theorem leaseTimerOf_inRange {x : Submission} {kind : Byte} (h : Claims.submissionInRange x kind) :
    leaseTimerOf x.kind x.lease = x.lease.map (· * 100) := by
  obtain ⟨kind, _, _, absent⟩ | ⟨kind, _, _, absent⟩ | ⟨kind, _, _, _⟩ := h.1
  · simp [leaseTimerOf, kind, absent]
  · simp [leaseTimerOf, kind, absent]
  · simp [leaseTimerOf, kind]

/-! ### The searches -/

section
variable {s : State} {p : Port} {key : Byte} {i : SlotId}

/-- R30: the test of the merge search. -/
theorem State.mergesInto_iff : Claims.mergesInto s p key i ↔
    key ≠ 0 ∧ s.jobSatisfies (fun j => j.owner == p && j.key == key && j.unstarted) i = true := by
  rw [State.jobSatisfies_eq_true, Claims.mergesInto]
  refine and_congr_right fun _ => exists_congr fun j => and_congr_right fun _ => ?_
  simp only [Job.unstarted, Bool.and_eq_true, Bool.or_eq_true, Bool.not_eq_true', beq_iff_eq]
  tauto

theorem State.mergeTarget_lowest (target : Claims.mergesInto s p key i)
    (lowest : ∀ k < i, ¬Claims.mergesInto s p key k) : s.mergeTarget p key = some i := by
  obtain ⟨ne, here⟩ := State.mergesInto_iff.1 target
  refine State.mergeTarget_eq_some.2 ⟨ne, here, fun k hk => Bool.eq_false_iff.2 fun test => ?_⟩
  exact lowest k hk (State.mergesInto_iff.2 ⟨ne, test⟩)

theorem State.mergeTarget_none (no_job : ∀ i, ¬Claims.mergesInto s p key i) : s.mergeTarget p key = none := by
  rw [Option.eq_none_iff_forall_ne_some]
  intro i target
  obtain ⟨ne, here, _⟩ := State.mergeTarget_eq_some.1 target
  exact no_job i (State.mergesInto_iff.2 ⟨ne, here⟩)

theorem State.firstFree_none (full : ∀ i, s.job i ≠ none) : s.firstFree = none :=
  List.find?_eq_none.2 fun i _ => by simpa using full i

theorem State.firstFree_lowest (free : s.job i = none) (lowest : ∀ k < i, s.job k ≠ none) : s.firstFree = some i :=
  find?_finRange.2 ⟨by simp [free], fun k hk => by simpa [Option.isSome_iff_ne_none] using lowest k hk⟩

end

/-! ### The checks in their order -/

section
variable {s : State} {p : Port} {tag kind : Byte} {x : Submission} {pr : Profile}

theorem submitReply_badValue {body : List Byte} (h : submissionOfBody body = none) :
    submitReply p ⟨.submit, tag, body⟩ s = Reply.refuse s .badValue := by simp only [submitReply, h]

theorem Submission.fits_iff : x.fits pr = true ↔ pr.lengthMode = .counted ∨ x.data.length = pr.fixedLen := by
  simp [Submission.fits, Profile.counts]

section
variable (h : Claims.submissionInRange x kind)
include h

theorem submitReply_noProfile (undefined : s.profile x.profile = none) :
    submitReply p ⟨.submit, tag, Claims.submitBody x kind⟩ s = Reply.refuse s .noProfile := by
  simp only [submitReply, submissionOfBody_submitBody h, undefined]

theorem submitReply_unfit (defined : s.profile x.profile = some pr) (unfit : ¬x.fits pr = true) :
    submitReply p ⟨.submit, tag, Claims.submitBody x kind⟩ s = Reply.refuse s .badValue := by
  simp only [submitReply, submissionOfBody_submitBody h, defined, if_neg unfit]

theorem submitReply_fits (defined : s.profile x.profile = some pr) (fits : x.fits pr = true) :
    submitReply p ⟨.submit, tag, Claims.submitBody x kind⟩ s = s.decideSubmit p x pr tag := by
  simp only [submitReply, submissionOfBody_submitBody h, defined, if_pos fits]

end

theorem State.decideSubmit_merges {i : SlotId} {j : Job} (target : s.mergeTarget p x.key = some i)
    (hj : s.job i = some j) : s.decideSubmit p x pr tag =
      { status := .merged, body := handleBody i (s.ticket i), state := s.mergeInto i j x pr tag } := by
  simp only [State.decideSubmit, target, hj, Option.bind_some, Option.map_some]

section
variable (no_target : s.mergeTarget p x.key = none)
include no_target

/-- R35. -/
theorem State.decideSubmit_noRoom (noRoom : 8 ≤ s.noticeSum p) :
    s.decideSubmit p x pr tag = Reply.refuse s .noRoom := by
  have noRoom : Config.noticeRoom ≤ s.noticeSum p := noRoom
  simp only [State.decideSubmit, no_target, Option.bind_none, if_pos noRoom]

/-- R36. -/
theorem State.decideSubmit_tableFull (room : s.noticeSum p < 8) (full : s.firstFree = none) :
    s.decideSubmit p x pr tag = Reply.refuse s .tableFull := by
  have room : ¬Config.noticeRoom ≤ s.noticeSum p := Nat.not_le.2 room
  simp only [State.decideSubmit, no_target, Option.bind_none, if_neg room, full]

/-- R37. -/
theorem State.decideSubmit_accepts {i : SlotId} (room : s.noticeSum p < 8) (lowest : s.firstFree = some i) :
    s.decideSubmit p x pr tag = { status := .ok, body := handleBody i (s.ticket i + 1)
                                  state := (s.fillSlot i (x.job p (s.port p).epoch pr tag)).joinTail i } := by
  have room : ¬Config.noticeRoom ≤ s.noticeSum p := Nat.not_le.2 room
  simp only [State.decideSubmit, no_target, Option.bind_none, if_neg room, lowest]

end

end

/-! ### Merging -/

section
variable {s : State} {i : SlotId} {j : Job} {x : Submission} {pr : Profile} {tag : Byte}

theorem State.mergeInto_sameClass (same : j.cls = x.cls) : s.mergeInto i j x pr tag =
    if j.state = .starting then (s.modifyJob i fun j => j.merge x pr tag).startGuard i
    else s.modifyJob i fun j => j.merge x pr tag := by
  rw [State.mergeInto, if_pos same]

theorem State.mergeInto_newClass (other : j.cls ≠ x.cls) :
    s.mergeInto i j x pr tag = ((s.modifyJob i fun j => j.merge x pr tag).vacate i).joinTail i := by
  rw [State.mergeInto, if_neg other]

/-- R32, R52: the guard that restarts for a merged candidate is that of its new profile. -/
theorem State.guardTarget_merged (hj : s.job i = some j) (defined : s.profile x.profile = some pr) :
    (s.modifyJob i fun j => j.merge x pr tag).guardTarget i = pr.guardCells * pr.cellUs := by
  have profile : (j.merge x pr tag).profile = x.profile := rfl
  simp only [State.guardTarget, State.jobProfile, State.modifyJob_job_self, hj, Option.map_some, Option.bind_some,
    State.modifyJob_profile, profile, defined, Option.getD_some, Profile.guardUs, Profile.cells]

end

end Sys2Proof.Machine

section
open Sys2Proof Sys2Proof.Machine

/-- Settles O35: the checks in their order, then the lowest FREE slot. -/
theorem submitAllocatesLowestSlot : Obligations.SubmitAllocatesLowestSlot := by
  refine ⟨fun s p tag body asks => ?_, fun s p tag kind x ranges asks => ?_⟩
  · intro b out
    have unread : submissionOfBody body = none := by
      rw [Option.eq_none_iff_forall_ne_some]
      intro x read
      obtain ⟨h1, h2, h4, h3, h8, h6, h9, h10, h10'⟩ := submissionOfBody_bounds read
      have spelled (k : Nat) : b k = bodyNat body k := rfl
      simp only [spelled] at out
      split at h3 <;> split at h8 <;> omega
    refine (State.takeRequest_asks _ asks).trans ?_
    rw [submitReply_badValue unread]
    rfl
  · have run {reply : Reply} (replies : submitReply p ⟨.submit, tag, Claims.submitBody x kind⟩ s = reply) :
        exec (.submit p) s = .next (reply.state.answered p .submit tag reply.status reply.body) := by
      rw [← replies]
      exact State.takeRequest_asks _ asks
    refine ⟨fun undefined => run (submitReply_noProfile ranges undefined), fun pr defined => ⟨fun fixed length => ?_,
      fun fits no_target => ?_⟩⟩
    · refine run (submitReply_unfit ranges defined fun fits => ?_)
      obtain counted | same := Submission.fits_iff.1 fits
      · cases fixed.symm.trans counted
      · exact length same
    · have decided := submitReply_fits (p := p) (tag := tag) ranges defined (Submission.fits_iff.2 fits)
      have no_target := State.mergeTarget_none no_target
      refine ⟨fun noRoom => run (decided.trans (State.decideSubmit_noRoom no_target noRoom)),
        fun room full => run (decided.trans (State.decideSubmit_tableFull no_target room (State.firstFree_none full))),
        fun i room free lowest => ?_⟩
      · have accepts := State.decideSubmit_accepts (pr := pr) (tag := tag) no_target room
          (State.firstFree_lowest free lowest)
        refine (run (decided.trans accepts)).trans ?_
        rw [Submission.job, leaseTimerOf_inRange ranges]
        rfl

/-- Settles O36: the lowest merge target takes the submission, and its class decides whether it moves. -/
theorem submitMergesIntoUnstartedJob : Obligations.SubmitMergesIntoUnstartedJob := by
  intro s p tag kind x pr i j ranges asks defined fits target lowest hj merged handle
  have run : exec (.submit p) s = .next ((s.mergeInto i j x pr tag).answered p .submit tag .merged handle) := by
    refine (State.takeRequest_asks _ asks).trans ?_
    rw [submitReply_fits ranges defined (Submission.fits_iff.2 fits),
      State.decideSubmit_merges (State.mergeTarget_lowest target lowest) hj]
    rfl
  have record : (s.modifyJob i fun j => j.merge x pr tag) = merged := by
    simp only [Job.merge, leaseTimerOf_inRange ranges]
    rfl
  refine ⟨fun same queued => ?_, fun same starting => ?_, fun other => ?_⟩
  · rw [run, State.mergeInto_sameClass same.symm, if_neg (by simp [queued]), record]
  · rw [run, State.mergeInto_sameClass same.symm, if_pos starting, State.startGuard,
      State.guardTarget_merged hj defined, record]
    rfl
  · rw [run, State.mergeInto_newClass (Ne.symm other), record]
    rfl

end
end

section
/-! PROOFS. JOB_QUERY (R43, R184): the bytes of the snapshot, and the place of a waiting job. -/

-- The proofs run one after another, for the memory limit of the check.
set_option Elab.async false

namespace Sys2Proof.Machine

/-- A list that fits is followed by the zeros that fill it up. -/
theorem padTo_of_le {n : Nat} {bs : List Byte} (h : bs.length ≤ n) :
    padTo n bs = bs ++ List.replicate (n - bs.length) 0 := by
  rw [padTo, List.take_append, List.take_of_length_le h, List.take_replicate, Nat.min_eq_left (Nat.sub_le _ _)]

/-- R43: a running timer shows at least 1. -/
theorem Timer.left_eq (t : Timer) : t.left = match t with
    | none => 0
    | some n => if n = 0 then 1 else n := by
  cases t with
  | none => rfl
  | some n =>
    change max n 1 = if n = 0 then 1 else n
    split <;> omega

/-- R184: the three flags, bit by bit. -/
theorem Job.flagsByte_eq (j : Job) : j.flagsByte = BitVec.ofNat 8
    ((if j.started then 1 else 0) + (if j.cancelPending then 2 else 0) + (if j.resumeFull then 4 else 0)) := by
  have flag (b : Bool) (n : Nat) : n * b.toNat = if b then n else 0 := by cases b <;> simp
  rw [Job.flagsByte, ← flag, ← flag, ← flag, Nat.one_mul]
  rfl

theorem endPendingCode_eq (e : Option EndPending) : endPendingCode e = match e with
    | none => (0 : Byte)
    | some .released => 1
    | some .lapsed => 2 := by
  cases e with
  | none => rfl
  | some e => cases e <;> rfl

/-- The index of a member is the number of those before it. -/
theorem idxOf_append_cons {i : SlotId} {ahead behind : List SlotId} (h : i ∉ ahead) :
    (ahead ++ i :: behind).idxOf i = ahead.length := by
  rw [List.idxOf_append_of_notMem h, List.idxOf_cons_self, Nat.add_zero]

section
variable {s : State} {i : SlotId} {j : Job}

/-- R43: the place of a waiting job counts from the head of its queue. -/
theorem State.placeOf_queued {ahead behind : List SlotId} (state : j.state = .queued)
    (queue : s.la.queues[j.cls] = ahead ++ i :: behind) (first : i ∉ ahead) : s.placeOf i j = ahead.length := by
  simp only [State.placeOf, state, queue]
  exact idxOf_append_cons first

/-- R43: and that of a suspended job from the top of the stack. -/
theorem State.placeOf_suspended {below above : List SlotId} (state : j.state = .suspended)
    (stack : s.la.stack = below ++ i :: above) (top : i ∉ above) : s.placeOf i j = above.length := by
  have reversed : s.la.stack.reverse = above.reverse ++ i :: below.reverse := by simp [stack]
  simp only [State.placeOf, state, reversed]
  rw [idxOf_append_cons (by simpa using top), List.length_reverse]

theorem State.placeOf_elsewhere (queued : j.state ≠ .queued) (suspended : j.state ≠ .suspended) :
    s.placeOf i j = 0 := by
  unfold State.placeOf
  split
  · exact absurd ‹_› queued
  · exact absurd ‹_› suspended
  all_goals rfl

end

end Sys2Proof.Machine

section
open Sys2Proof Sys2Proof.Machine

/-- Settles O40: the place is `State.placeOf`, and every other byte is that of the record. -/
theorem jobQueryShowsRecord : Obligations.JobQueryShowsRecord := by
  intro s p tag slot ticket i j asks names owner short left number pair
  refine ⟨s.placeOf i j, ?_, fun ahead behind state queue first => State.placeOf_queued state queue first,
    fun below above state stack top => State.placeOf_suspended state stack top,
    fun queued suspended => State.placeOf_elsewhere queued suspended⟩
  have replies : jobQueryReply p ⟨.jobQuery, tag, [slot, ticket]⟩ s =
      { status := .ok, body := s.jobBody i j, state := s } := State.withHandle_names names owner _
  have left_eq (t : Timer) : t.left = left t := t.left_eq
  obtain ⟨rfl, _, rfl, _⟩ := names
  refine (State.takeRequest_asks _ asks).trans ?_
  rw [replies]
  simp only [State.jobBody, padTo_of_le short, left_eq, j.flagsByte_eq, endPendingCode_eq, List.append_assoc]
  rfl

end
end

section
/-! PROOFS. What a command can do to the line (R48, R51): the changes of `State.JobStep`, with changes before and after
it that leave the queues, the stack in its order and the line position, and of every job its rank. -/

-- The proofs run one after another, for the memory limit of the check.
set_option Elab.async false

namespace Sys2Proof.Machine

/-! ### Changes that leave the line -/

/-- What the law of the stack asks of a job: its class, and whether it has begun its repetitions. -/
def Job.rank (j : Job) : Class × Bool := (j.cls, j.started && j.kind != .oneshot)

/-- No job has changed its rank, and none has come or gone. -/
def State.SameRanks (s t : State) : Prop := ∀ k, (t.job k).map Job.rank = (s.job k).map Job.rank

section
variable {s t : State}

theorem State.SameRanks.jobClass (h : s.SameRanks t) (k : SlotId) : t.jobClass k = s.jobClass k := by
  have cls (u : State) : u.jobClass k = (((u.job k).map Job.rank).map Prod.fst).getD 0 := by
    rw [Option.map_map]; rfl
  rw [cls, cls, h k]

theorem State.SameRanks.repeats (h : s.SameRanks t) (k : SlotId) : t.repeats k = s.repeats k := by
  have begun (u : State) : u.repeats k = ((u.job k).map Job.rank).any Prod.snd := by
    rw [Option.any_map]; rfl
  rw [begun, begun, h k]

theorem State.SameRanks.modifyJob (s : State) (i : SlotId) (f : Job → Job)
    (rank : ∀ j, s.job i = some j → (f j).rank = j.rank := by intro _ _; rfl) : s.SameRanks (s.modifyJob i f) := by
  intro k
  rw [State.modifyJob_job]
  split
  · subst k
    rw [Option.map_map]
    cases hj : s.job i with
    | none => rfl
    | some j => exact congrArg some (rank j hj)
  · rfl

end

/-- Every slot is in t in the place and at the stage of s, the waiting jobs wait in their order, and no job has changed
its rank. -/
structure State.SameLine (s t : State) : Prop where
  slots    : ∀ k, s.SameSlot t k
  ranks    : s.SameRanks t
  queues   : t.la.queues = s.la.queues
  stack    : t.la.stack = s.la.stack
  position : t.la.position = s.la.position

namespace State.SameLine
variable {s t u : State}

theorem trans (h : s.SameLine t) (h' : t.SameLine u) : s.SameLine u where
  slots := fun k => (h.slots k).trans (h'.slots k)
  ranks := fun k => (h'.ranks k).trans (h.ranks k)
  queues := h'.queues.trans h.queues
  stack := h'.stack.trans h.stack
  position := h'.position.trans h.position

/-- A change of other blocks. -/
theorem of_blocks (jobs : t.jobs = s.jobs) (la : t.la = s.la) (tx : t.tx = s.tx) : s.SameLine t where
  slots := fun _ => .of_blocks jobs la tx
  ranks := fun k => by simp only [State.job, jobs]
  queues := by rw [la]
  stack := by rw [la]
  position := by rw [la]

theorem refl (s : State) : s.SameLine s := of_blocks rfl rfl rfl

theorem receives (h : s.OnlyReceives t) : s.SameLine t := of_blocks (by rw [h.rest]) (by rw [h.rest]) (by rw [h.rest])

/-- A change of the guard and the repeat period. -/
theorem la (s : State) {a : Arbiter} (queues : a.queues = s.la.queues) (stack : a.stack = s.la.stack)
    (backoff : a.backoff = s.la.backoff) (position : a.position = s.la.position) :
    s.SameLine { s with la := a } :=
  ⟨fun _ => .of_rest rfl (.of_places queues stack backoff position) rfl, fun _ => rfl, queues, stack, position⟩

/-- A change of a job that leaves its stage and its rank. -/
theorem modifyJob (s : State) (i : SlotId) {f : Job → Job} (stage : ∀ j, (f j).stage = j.stage := by intro _; rfl)
    (rank : ∀ j, s.job i = some j → (f j).rank = j.rank := by intro _ _; rfl) : s.SameLine (s.modifyJob i f) where
  slots := fun k => .modifyJob s i k stage
  ranks := .modifyJob s i f rank
  queues := rfl
  stack := rfl
  position := rfl

theorem modifyPort (s : State) (p : Port) (f : HostPort → HostPort) : s.SameLine (s.modifyPort p f) :=
  of_blocks rfl rfl rfl

theorem reevaluateListening (s : State) : s.SameLine s.reevaluateListening := receives (.reevaluateListening s)

end State.SameLine

/-- t comes from s by one change of `State.JobStep`, with changes before and after that leave the line. -/
def State.LineSteps (s t : State) : Prop := ∃ u v, s.SameLine u ∧ u.JobStep v ∧ v.SameLine t

section
variable {s t u : State}

theorem State.SameLine.steps (h : s.SameLine t) : s.LineSteps t := ⟨t, t, h, .nothing, .refl t⟩

theorem State.LineSteps.same (s : State) : s.LineSteps s := (State.SameLine.refl s).steps

theorem State.JobStep.lineSteps (h : s.JobStep t) : s.LineSteps t := ⟨s, t, .refl s, h, .refl t⟩

theorem State.LineSteps.thenSame (h : s.LineSteps t) (h' : t.SameLine u) : s.LineSteps u := by
  obtain ⟨v, w, before, step, after⟩ := h
  exact ⟨v, w, before, step, after.trans h'⟩

end

/-! ### Requests -/

section
variable {s t : State} {k : RequestKind} {p : Port} {h : Request → State → Reply}

/-- R165: taking a request does what the block's handler does, and answers it. -/
theorem State.takeRequest_lineSteps
    (handler : ∀ r, (k.needsSession = true → s.asksInSession p) → s.LineSteps (h r s).state)
    (ht : s.takeRequest k p h = .next t) : s.LineSteps t := by
  obtain none_pending | ⟨r, pending, kind, answered⟩ := s.takeRequest_cases k p h
  · cases none_pending.symm.trans ht
    exact .same s
  · cases answered.symm.trans ht
    exact (handler r fun needs => ⟨r, pending, kind ▸ needs⟩).thenSame (.modifyPort _ p _)

/-- R165: a request whose handler leaves the line leaves it. -/
theorem State.takeRequest_sameLine (handler : ∀ r, s.SameLine (h r s).state)
    (ht : s.takeRequest k p h = .next t) : s.LineSteps t :=
  State.takeRequest_lineSteps (fun r _ => (handler r).steps) ht

end

section
variable (s : State) (p : Port) (r : Request)

theorem openReply_sameLine : s.SameLine (openReply p r s).state := by
  unfold openReply
  split <;> exact .of_blocks rfl rfl rfl

theorem setAttnReply_sameLine : s.SameLine (setAttnReply p r s).state := by
  unfold setAttnReply
  split <;> exact .of_blocks rfl rfl rfl

theorem noticeFetchReply_sameLine : s.SameLine (noticeFetchReply p r s).state := by
  unfold noticeFetchReply
  split <;> exact .of_blocks rfl rfl rfl

theorem profileSetReply_sameLine : s.SameLine (profileSetReply r s).state := by
  unfold profileSetReply profileDefineReply
  repeat' split
  all_goals exact .of_blocks rfl rfl rfl

theorem ringSetReply_sameLine : s.SameLine (ringSetReply p r s).state := by
  unfold ringSetReply State.placeRing
  repeat' split
  all_goals exact .of_blocks rfl rfl rfl

theorem ringReadReply_sameLine : s.SameLine (ringReadReply p r s).state := by
  unfold ringReadReply State.readRing
  repeat' split
  all_goals exact .of_blocks rfl rfl rfl

/-- R18: a change of an entry reaches the decoder at most. -/
theorem State.SameLine.changeEntry (e : EntryId) (x : Option Entry) : s.SameLine (s.changeEntry e x) :=
  State.SameLine.trans (t := s.setEntry e x) (.of_blocks rfl rfl rfl) (.reevaluateListening _)

theorem subscribeReply_sameLine : s.SameLine (subscribeReply p r s).state := by
  unfold subscribeReply
  repeat' split
  · exact .refl s
  · exact .refl s
  · exact .refl s
  · exact .changeEntry s _ _

/-- R130: a request that names an entry leaves the line when its effect on the entry does. -/
theorem State.withEntry_sameLine {body : List Byte} {f : EntryId → Entry → Reply}
    (hf : ∀ e x, s.SameLine (f e x).state) : s.SameLine (s.withEntry p body f).state := by
  unfold State.withEntry
  repeat' split
  · exact .refl s
  · exact hf _ _
  · exact .refl s

theorem unsubscribeReply_sameLine : s.SameLine (unsubscribeReply p r s).state :=
  s.withEntry_sameLine p fun e _ => .changeEntry s e none

theorem subEnableReply_sameLine : s.SameLine (subEnableReply p r s).state := by
  refine s.withEntry_sameLine p fun e x => ?_
  repeat' split
  · exact .refl s
  · exact .refl s
  · exact .refl s
  · exact .changeEntry s e _

/-- R42: a request with a handle does what its effect on the job it names does. -/
theorem State.withHandle_lineSteps {body : List Byte} {f : SlotId → Job → Reply}
    (hf : ∀ i j, s.job i = some j → s.LineSteps (f i j).state) : s.LineSteps (s.withHandle p body f).state := by
  unfold State.withHandle
  split
  · exact .same s
  · rename_i i j named
    split
    · refine hf i j ?_
      unfold State.handleJob at named
      repeat' split at named
      all_goals cases named
      assumption
    · exact .same s

theorem keepReply_lineSteps : s.LineSteps (keepReply p r s).state := by
  refine s.withHandle_lineSteps p fun i j _ => ?_
  repeat' split
  · exact .same s
  · exact .same s
  · exact (State.SameLine.modifyJob s i).steps

/-- R88: the job that a request ends is not SENDING. -/
theorem State.endJob_lineSteps {i : SlotId} {j : Job} (hj : s.job i = some j) (o : JobOutcome)
    (quiet : j.state ≠ .sending) : s.LineSteps (s.endJob i o) :=
  (State.JobStep.ended i o fun j' hj' => by cases hj.symm.trans hj'; exact .inl quiet).lineSteps

theorem Job.deferRelease_line (j : Job) : j.deferRelease.stage = j.stage ∧ j.deferRelease.rank = j.rank := by
  unfold Job.deferRelease
  split <;> exact ⟨rfl, rfl⟩

/-- R92: a HELD job that has not started becomes a ONESHOT; neither has begun its repetitions. -/
theorem Job.toOneshot_rank {j : Job} (unstarted : j.unstarted = true) : j.toOneshot.rank = j.rank := by
  have fresh : j.started = false := by simpa using (Bool.and_eq_true_iff.1 unstarted).2
  simp [Job.rank, Job.toOneshot, fresh]

theorem releaseReply_lineSteps : s.LineSteps (releaseReply p r s).state := by
  refine s.withHandle_lineSteps p fun i j hj => ?_
  split
  · exact .same s
  · split
    · exact (State.SameLine.modifyJob s i (fun x => x.deferRelease_line.1) fun x _ => x.deferRelease_line.2).steps
    · rename_i quiet
      split
      · rename_i unstarted
        refine (State.SameLine.modifyJob s i (f := Job.toOneshot) (fun _ => rfl) fun x hx => ?_).steps
        cases hj.symm.trans hx
        exact Job.toOneshot_rank unstarted
      · exact s.endJob_lineSteps hj _ quiet

theorem cancelReply_lineSteps : s.LineSteps (cancelReply p r s).state := by
  refine s.withHandle_lineSteps p fun i j hj => ?_
  split
  · exact (State.SameLine.modifyJob s i).steps
  · exact s.endJob_lineSteps hj _ ‹_›

theorem jobQueryReply_lineSteps : s.LineSteps (jobQueryReply p r s).state :=
  s.withHandle_lineSteps p fun _ _ _ => .same s

/-- R30 to R37: a submission that passed its checks merges, is accepted, or changes nothing. -/
theorem State.decideSubmit_lineSteps (x : Submission) (pr : Profile) (tag : Byte) (asks : s.asksInSession p) :
    s.LineSteps (s.decideSubmit p x pr tag).state := by
  unfold State.decideSubmit
  split
  · rename_i i j target
    obtain ⟨k, found, named⟩ := Option.bind_eq_some_iff.1 target
    obtain ⟨j', hj, same⟩ := Option.map_eq_some_iff.1 named
    cases same
    obtain ⟨_, satisfies, _⟩ := State.mergeTarget_eq_some.1 found
    obtain ⟨j', hj', test⟩ := State.jobSatisfies_eq_true.1 satisfies
    cases hj.symm.trans hj'
    exact (State.JobStep.merged i j x pr tag hj (Bool.and_eq_true_iff.1 test).2).lineSteps
  · repeat' split
    · exact .same s
    · exact .same s
    · rename_i room _ i first
      have free : s.job i = none := by simpa using List.find?_some first
      exact (State.JobStep.accepted p i x pr tag asks free (Nat.lt_of_not_le room)).lineSteps

theorem submitReply_lineSteps (asks : s.asksInSession p) : s.LineSteps (submitReply p r s).state := by
  unfold submitReply
  repeat' split
  · exact .same s
  · exact .same s
  · exact s.decideSubmit_lineSteps p _ _ _ asks
  · exact .same s

end

section
variable {s t : State}

/-- R173: a CLOSE that is accepted is answered in the same change. -/
theorem execClose_lineSteps {p : Port} (h : execClose p s = .next t) : s.LineSteps t := by
  obtain none_pending | ⟨r, _, _, answered⟩ := s.takeRequest_cases .closeSession p (closeReply p)
  · cases none_pending.symm.trans h
    exact .same s
  · cases answered.symm.trans h
    unfold closeReply
    split
    · exact (State.SameLine.modifyPort s p _).steps
    · exact (State.JobStep.closed p _ r _ _).lineSteps

/-! ### The line, the clock and the timers -/

theorem execLineTick_lineSteps (h : execLineTick s = .next t) : s.LineSteps t := by
  cases h
  have places : (s.la.tick s.rx.level).queues = s.la.queues ∧ (s.la.tick s.rx.level).stack = s.la.stack ∧
      (s.la.tick s.rx.level).backoff = s.la.backoff ∧ (s.la.tick s.rx.level).position = s.la.position := by
    cases s.rx.level <;> exact ⟨rfl, rfl, rfl, rfl⟩
  obtain ⟨queues, stack, backoff, position⟩ := places
  refine State.SameLine.steps ⟨fun k => ⟨rfl, .of_places queues stack backoff position, ?_⟩, fun _ => rfl, queues,
    stack, position⟩
  simp only [State.driven_iff, Transmitter.tick_slot]

/-- R3: timers that are lowered move no job. -/
theorem State.SameLine.lowerTimers (s : State) : s.SameLine s.lowerTimers where
  slots := (State.Beside.lowerTimers s).slots
  ranks := fun k => by
    rw [State.lowerTimers_job, Option.map_map]
    rfl
  queues := rfl
  stack := rfl
  position := rfl

theorem execMillisecondTick_lineSteps (h : execMillisecondTick s = .next t) : s.LineSteps t := by
  obtain early | due := Nat.lt_or_ge s.tickCount 1000
  · cases (execMillisecondTick_early early).symm.trans h
    exact .same s
  · have made := Host.Outcome.next.inj ((execMillisecondTick_due due).symm.trans h)
    subst made
    have clock (n : Nat) (ms : BitVec 32) : s.lowerTimers.SameLine { s.lowerTimers with tickCount := n, ms := ms } :=
      .of_blocks rfl rfl rfl
    exact ((State.SameLine.lowerTimers s).trans (clock _ _)).steps

theorem execDetectMark_lineSteps (h : execDetectMark s = .next t) : s.LineSteps t := by
  unfold execDetectMark at h
  split at h <;> cases h
  · exact .same s
  · have guard : s.SameLine { s with la := s.turnToMark.la } := .la s rfl rfl rfl rfl
    have turned : s.SameLine s.turnToMark := guard.trans (.of_blocks rfl rfl rfl)
    exact (turned.trans (.receives (.judgeAtMark _ _))).steps

theorem execDetectSpace_lineSteps (h : execDetectSpace s = .next t) : s.LineSteps t := by
  unfold execDetectSpace at h
  split at h <;> cases h
  · exact .same s
  · exact ((State.SameLine.receives (.rx s _)).trans (.receives (.judgeAtSpace s.turnToSpace _))).steps

theorem execMarkTooLong_lineSteps (h : execMarkTooLong s = .next t) : s.LineSteps t := by
  unfold execMarkTooLong at h
  split at h <;> cases h
  · exact (State.SameLine.receives (.markTooLong s)).steps
  · exact .same s

theorem execLeaderSpaceTooLong_lineSteps (h : execLeaderSpaceTooLong s = .next t) : s.LineSteps t := by
  unfold execLeaderSpaceTooLong at h
  repeat' split at h
  all_goals cases h
  · exact (State.SameLine.receives (.noise s)).steps
  · exact .same s
  · exact .same s

theorem execEndGapReached_lineSteps (h : execEndGapReached s = .next t) : s.LineSteps t := by
  unfold execEndGapReached at h
  repeat' split at h
  all_goals cases h
  · exact (State.SameLine.receives (.closeDecode s _ _)).steps
  · exact .same s
  · exact .same s
  · exact .same s

theorem execClosingGapReached_lineSteps (h : execClosingGapReached s = .next t) : s.LineSteps t := by
  unfold execClosingGapReached at h
  repeat' split at h
  all_goals cases h
  · exact (State.SameLine.receives (.rx s _)).steps
  · exact .same s
  · exact .same s

theorem execHoldWindowExpiry_lineSteps (h : execHoldWindowExpiry s = .next t) : s.LineSteps t := by
  unfold execHoldWindowExpiry at h
  repeat' split at h
  all_goals cases h
  · exact (State.SameLine.receives (.endHold s _)).steps
  · exact .same s
  · exact .same s

theorem execGuardComplete_lineSteps (h : execGuardComplete s = .next t) : s.LineSteps t := by
  unfold execGuardComplete at h
  repeat' split at h
  all_goals cases h
  · rename_i candidate
    exact (State.JobStep.frameStart _ (.inl ⟨_, candidate⟩)).lineSteps
  · rename_i holder start
    exact (State.JobStep.frameStart _ (.inr ⟨holder, start.1⟩)).lineSteps
  · exact .same s
  · exact .same s
  · exact .same s

theorem execRepeatPeriodExpiry_lineSteps (h : execRepeatPeriodExpiry s = .next t) : s.LineSteps t := by
  have period : s.SameLine s.endPeriod := .la s rfl rfl rfl rfl
  unfold execRepeatPeriodExpiry at h
  repeat' split at h
  all_goals cases h
  · rename_i holder start
    exact ⟨_, _, period, .frameStart _ (.inr ⟨holder, start.1⟩), .refl _⟩
  · exact period.steps
  · exact .same s
  · exact .same s
  · exact .same s

theorem execDriveDone_lineSteps (h : execDriveDone s = .next t) : s.LineSteps t := by
  unfold execDriveDone at h
  repeat' split at h
  all_goals cases h
  · exact (State.JobStep.frameEnd _ ‹_›).lineSteps
  · exact .same s
  · exact .same s

theorem execCollision_lineSteps (h : execCollision s = .next t) : s.LineSteps t := by
  unfold execCollision at h
  repeat' split at h
  all_goals cases h
  · exact (State.JobStep.collided _ ‹_›).lineSteps
  · exact .same s
  · exact .same s

section
variable {i : SlotId}

theorem execBackoffExpiry_lineSteps (h : execBackoffExpiry i s = .next t) : s.LineSteps t := by
  unfold execBackoffExpiry at h
  split at h <;> cases h
  · rename_i due
    obtain ⟨j, hj, test⟩ := State.jobSatisfies_eq_true.1 due
    exact (State.JobStep.rejoined i j hj (by simpa using (Bool.and_eq_true_iff.1 test).1)).lineSteps
  · exact .same s

theorem execDeadlineExpiry_lineSteps (h : execDeadlineExpiry i s = .next t) : s.LineSteps t := by
  unfold execDeadlineExpiry at h
  split at h <;> cases h
  · rename_i due
    refine (State.JobStep.ended i _ fun j hj => .inr ?_).lineSteps
    rw [State.jobSatisfies_of_job hj, Timer.due_iff] at due
    rw [due]
    rfl
  · exact .same s

theorem execLeaseExpiry_lineSteps (h : execLeaseExpiry i s = .next t) : s.LineSteps t := by
  unfold execLeaseExpiry at h
  repeat' split at h
  all_goals cases h
  · exact (State.SameLine.modifyJob s i).steps
  · rename_i quiet
    refine (State.JobStep.ended i _ fun j hj => .inl fun sending => quiet ?_).lineSteps
    exact State.jobIn_iff.2 ⟨j, hj, sending⟩
  · exact .same s

end

/-! ### The wires -/

theorem execSelect_lineSteps {p : Port} (h : execSelect p s = .next t) : s.LineSteps t := by
  unfold execSelect at h
  split at h <;> cases h
  · exact .same s
  · exact (State.SameLine.modifyPort s p _).steps

theorem execDeselect_lineSteps {p : Port} (h : execDeselect p s = .next t) : s.LineSteps t := by
  unfold execDeselect at h
  split at h <;> cases h
  · exact (State.SameLine.modifyPort s p _).steps
  · exact .same s

end

/-! ### Every command -/

/-- What every command does to the line. -/
theorem exec_lineSteps {c : Instr} {s t : State} (h : exec c s = .next t) : s.LineSteps t := by
  cases c with
  | fullReset straps => cases h; exact (State.JobStep.reset straps).lineSteps
  | lineTick => exact execLineTick_lineSteps h
  | millisecondTick => exact execMillisecondTick_lineSteps h
  | detectMark => exact execDetectMark_lineSteps h
  | detectSpace => exact execDetectSpace_lineSteps h
  | markTooLong => exact execMarkTooLong_lineSteps h
  | leaderSpaceTooLong => exact execLeaderSpaceTooLong_lineSteps h
  | endGapReached => exact execEndGapReached_lineSteps h
  | closingGapReached => exact execClosingGapReached_lineSteps h
  | holdWindowExpiry => exact execHoldWindowExpiry_lineSteps h
  | guardComplete => exact execGuardComplete_lineSteps h
  | repeatPeriodExpiry => exact execRepeatPeriodExpiry_lineSteps h
  | driveDone => exact execDriveDone_lineSteps h
  | collision => exact execCollision_lineSteps h
  | backoffExpiry i => exact execBackoffExpiry_lineSteps h
  | deadlineExpiry i => exact execDeadlineExpiry_lineSteps h
  | leaseExpiry i => exact execLeaseExpiry_lineSteps h
  | select p => exact execSelect_lineSteps h
  | deselect p => exact execDeselect_lineSteps h
  | serialClockEdge p edge => cases h; exact (State.SameLine.modifyPort s p _).steps
  | hello p => exact State.takeRequest_sameLine (fun _ => .refl s) h
  | openSession p => exact State.takeRequest_sameLine (openReply_sameLine s p) h
  | closeSession p => exact execClose_lineSteps h
  | setAttn p => exact State.takeRequest_sameLine (setAttnReply_sameLine s p) h
  | noticeFetch p => exact State.takeRequest_sameLine (noticeFetchReply_sameLine s p) h
  | lineQuery p => exact State.takeRequest_sameLine (fun _ => .refl s) h
  | profileSet p => exact State.takeRequest_sameLine (profileSetReply_sameLine s) h
  | profileGet p => exact State.takeRequest_sameLine (fun r => by rw [profileGetReply_state]; exact .refl s) h
  | submit p => exact State.takeRequest_lineSteps (fun r asks => submitReply_lineSteps s p r (asks rfl)) h
  | keep p => exact State.takeRequest_lineSteps (fun r _ => keepReply_lineSteps s p r) h
  | release p => exact State.takeRequest_lineSteps (fun r _ => releaseReply_lineSteps s p r) h
  | cancel p => exact State.takeRequest_lineSteps (fun r _ => cancelReply_lineSteps s p r) h
  | jobQuery p => exact State.takeRequest_lineSteps (fun r _ => jobQueryReply_lineSteps s p r) h
  | subscribe p => exact State.takeRequest_sameLine (subscribeReply_sameLine s p) h
  | unsubscribe p => exact State.takeRequest_sameLine (unsubscribeReply_sameLine s p) h
  | subEnable p => exact State.takeRequest_sameLine (subEnableReply_sameLine s p) h
  | subList p => exact State.takeRequest_sameLine (fun _ => .refl s) h
  | ringSet p => exact State.takeRequest_sameLine (ringSetReply_sameLine s p) h
  | ringRead p => exact State.takeRequest_sameLine (ringReadReply_sameLine s p) h
  | ringQuery p => exact State.takeRequest_sameLine (fun _ => .refl s) h

/-- What every step does to the line; the queue of waiting commands is beside it. -/
theorem step_lineSteps {s t : State} (h : step s = .next t) : s.LineSteps t := by
  obtain rfl | ⟨c, rest, _, h⟩ := step_cases h
  · exact .same _
  · obtain ⟨u, v, before, change, after⟩ := exec_lineSteps h
    have taken : s.SameLine { s with pending := rest } := .of_blocks rfl rfl rfl
    exact ⟨u, v, taken.trans before, change, after⟩

/-- A law that such changes keep is kept by every step. -/
theorem step_keeps_line {law : State → Prop} (same : ∀ s t, s.SameLine t → law s → law t)
    (jobStep : ∀ s t, s.JobStep t → law s → law t) {s t : State} (h : step s = .next t) (hs : law s) : law t := by
  obtain ⟨u, v, before, change, after⟩ := step_lineSteps h
  exact same v t after (jobStep u v change (same s u before hs))

end Sys2Proof.Machine
end

section
/-! PROOFS. Selection (R50): the highest waiting class, and the choice case by case. -/

-- The proofs run one after another, for the memory limit of the check.
set_option Elab.async false

namespace Sys2Proof.Machine

/-- R50: the highest class whose queue is not empty. -/
theorem Arbiter.highestQueue_eq_some {a : Arbiter} {q : Class} :
    a.highestQueue = some q ↔ a.queues[q] ≠ [] ∧ ∀ c : Class, q < c → a.queues[c] = [] := by
  have found : a.highestQueue = some q ↔
      (List.finRange 4).find? (fun c : Class => !a.queues[c.rev].isEmpty) = some q.rev := by
    rw [Arbiter.highestQueue, allClasses, List.finRange_reverse, List.find?_map, Option.map_eq_some_iff]
    constructor
    · rintro ⟨c, hc, rfl⟩
      simpa [Function.comp_def] using hc
    · exact fun h => ⟨q.rev, h, q.rev_rev⟩
  rw [found, find?_finRange]
  simp only [Fin.rev_rev, Bool.not_eq_true', List.isEmpty_eq_false_iff, Bool.not_eq_false', List.isEmpty_iff]
  refine and_congr_right fun _ => ⟨fun h c hc => ?_, fun h c hc => h _ ?_⟩
  · simpa using h c.rev (Fin.rev_lt_rev.2 hc)
  · rwa [Fin.lt_rev_iff] at hc

theorem Arbiter.highestQueue_eq_none {a : Arbiter} :
    a.highestQueue = none ↔ ∀ c : Class, a.queues[c] = [] := by
  simp [Arbiter.highestQueue, allClasses]

section
variable {s : State}

/-- R50: the top of the stack is chosen, unless a job of a higher class waits in a queue. -/
theorem State.choice_stack {top : SlotId} (hs : s.la.stack.getLast? = some top)
    (above : ∀ c : Class, s.jobClass top < c → s.la.queues[c] = []) : s.choice = some (top, .stack) := by
  cases hq : s.la.highestQueue with
  | none => simp only [State.choice, hs, hq]
  | some q =>
    have le : q ≤ s.jobClass top := not_lt.1 fun lt => (Arbiter.highestQueue_eq_some.1 hq).1 (above q lt)
    simp only [State.choice, hs, hq, if_pos le]

/-- R50: the head of the highest queue is chosen, when its class is above that of the top of the stack. -/
theorem State.choice_queue {q : Class} {head : SlotId} {rest : List SlotId} (hq : s.la.queues[q] = head :: rest)
    (highest : ∀ c : Class, q < c → s.la.queues[c] = [])
    (below : ∀ top, s.la.stack.getLast? = some top → s.jobClass top < q) : s.choice = some (head, .queue) := by
  have highest : s.la.highestQueue = some q := Arbiter.highestQueue_eq_some.2 ⟨by simp [hq], highest⟩
  cases hs : s.la.stack.getLast? with
  | none => simp only [State.choice, hs, highest, hq, List.head?_cons, Option.map_some]
  | some top =>
    simp only [State.choice, hs, highest, if_neg (not_le.2 (below top hs)), hq, List.head?_cons, Option.map_some]

theorem State.choice_nothing (stack : s.la.stack = []) (queues : ∀ c : Class, s.la.queues[c] = []) :
    s.choice = none := by
  have none : s.la.highestQueue = none := Arbiter.highestQueue_eq_none.2 queues
  simp only [State.choice, stack, none, List.getLast?_nil]

/-- R50: selection finds one of these three cases. -/
theorem State.choice_cases (s : State) :
    (∃ top, s.la.stack.getLast? = some top ∧ s.choice = some (top, .stack)) ∨
    (∃ (q : Class) (head : SlotId), head ∈ s.la.queues[q] ∧
      (∀ top, s.la.stack.getLast? = some top → s.jobClass top < q) ∧ s.choice = some (head, .queue)) ∨
    (s.la.stack = [] ∧ (∀ c : Class, s.la.queues[c] = []) ∧ s.choice = none) := by
  cases hq : s.la.highestQueue with
  | none =>
    have queues := Arbiter.highestQueue_eq_none.1 hq
    cases hs : s.la.stack.getLast? with
    | none =>
      have stack := List.getLast?_eq_none_iff.1 hs
      exact .inr (.inr ⟨stack, queues, State.choice_nothing stack queues⟩)
    | some top => exact .inl ⟨top, rfl, State.choice_stack hs fun c _ => queues c⟩
  | some q =>
    obtain ⟨waits, highest⟩ := Arbiter.highestQueue_eq_some.1 hq
    obtain ⟨head, rest, queue⟩ := List.exists_cons_of_ne_nil waits
    by_cases below : ∀ top, s.la.stack.getLast? = some top → s.jobClass top < q
    · exact .inr (.inl ⟨q, head, by simp [queue], below, State.choice_queue queue highest below⟩)
    · obtain ⟨top, hs, le⟩ : ∃ top, s.la.stack.getLast? = some top ∧ q ≤ s.jobClass top := by simpa using below
      exact .inl ⟨top, hs, State.choice_stack hs fun c lt => highest c (lt_of_le_of_lt le lt)⟩

theorem State.select_of_choice {i : SlotId} {o : Origin} (h : s.choice = some (i, o)) :
    s.select = s.makeCandidate i o := by simp only [State.select, h]

theorem State.select_of_none (h : s.choice = none) : s.select = s := by simp only [State.select, h]

end

/-- R46, R47: a job waits in one queue, that of its class. -/
theorem State.SlotPlaced.queue_class {s : State} {i : SlotId} (h : s.SlotPlaced i) {q : Class}
    (waits : i ∈ s.la.queues[q]) : s.jobClass i = q := by
  obtain ⟨j, hj, queued⟩ := h.found.1 q waits
  have own : i ∈ s.la.queues[j.cls] := by simpa [queued, Arbiter.standsIn] using h.stands j hj
  rw [State.jobClass_of_job hj]
  by_contra other
  have twice := Finset.add_le_sum (f := fun c : Class => s.la.queues[c].count i) (fun _ _ => Nat.zero_le _)
    (Finset.mem_univ j.cls) (Finset.mem_univ q) other
  have here := List.count_pos_iff.2 waits
  have there := List.count_pos_iff.2 own
  have once := h.count_le
  rw [Arbiter.places_count] at once
  omega

end Sys2Proof.Machine
end

section
/-! PROOFS. The laws of the stack and of selection (R48, R51): what the arbiter's operations, frame ends and closes keep
of them. While the line position is empty the law of the stack says the same of the stack alone, so it holds between an
event that empties the position and the selection that fills it. -/

-- The proofs run one after another, for the memory limit of the check.
set_option Elab.async false

namespace Sys2Proof.Machine

variable {s t : State} {i : SlotId} {j : Job}

/-- R48, R51 together. -/
def State.lineLawful (s : State) : Prop := s.stackLawful ∧ s.selectionLawful

/-! ### Jobs after a change -/

/-- A job that is brought to another state than GAP is not in GAP. -/
theorem State.modifyJob_not_gap (s : State) (i : SlotId) {f : Job → Job}
    (state : ∀ j, s.job i = some j → (f j).state ≠ .gap) : (s.modifyJob i f).jobIn i .gap ≠ true := by
  intro gap
  obtain ⟨x, hx, gap⟩ := State.jobIn_iff.1 gap
  rw [State.modifyJob_job_self] at hx
  obtain ⟨j, hj, rfl⟩ := Option.map_eq_some_iff.1 hx
  exact state j hj gap

section
variable {k : SlotId} (same : t.job k = s.job k)
include same

theorem State.jobClass_congr : t.jobClass k = s.jobClass k := by simp only [State.jobClass, same]

theorem State.repeats_congr : t.repeats k = s.repeats k := by simp only [State.repeats, State.jobSatisfies, same]

theorem State.jobIn_congr (st : JobState) : t.jobIn k st = s.jobIn k st := by
  simp only [State.jobIn, State.jobSatisfies, same]

end

/-! ### The stack -/

/-! The four clauses of R48. -/

theorem State.stackLawful.rising (h : s.stackLawful) : (s.la.stack.map s.jobClass).Pairwise (· < ·) := h.1

theorem State.stackLawful.suspended (h : s.stackLawful) (mem : i ∈ s.la.stack) :
    s.jobClass i < 3 ∧ s.repeats i = true := h.2.1 i mem

theorem State.stackLawful.top_lt_held (h : s.stackLawful) {top : SlotId} (held : s.la.position.slot = some i)
    (hs : s.la.stack.getLast? = some top) : s.jobClass top < s.jobClass i := h.2.2.1 i held top hs

theorem State.stackLawful.repeating (h : s.stackLawful)
    (set_aside : s.la.position = .candidate i .stack ∨ s.jobIn i .gap = true) : s.repeats i = true :=
  h.2.2.2 i set_aside

/-- R48: in a stack whose classes rise the top has the highest class. -/
theorem State.stackLawful.class_lt_top (h : s.stackLawful) {top k : SlotId} (hs : s.la.stack.getLast? = some top)
    (mem : k ∈ s.la.stack) (other : k ≠ top) : s.jobClass k < s.jobClass top := by
  have rising := h.rising
  obtain ⟨below, stack⟩ := List.getLast?_eq_some_iff.1 hs
  rw [stack, List.map_append, List.pairwise_append] at rising
  obtain ⟨_, _, lt⟩ := rising
  have mem : k ∈ below := by simpa [stack, other] using mem
  exact lt _ (List.mem_map_of_mem mem) _ (by simp)

/-- R48: and no suspended job has a class above it. -/
theorem State.stackLawful.class_le_top (h : s.stackLawful) {k : SlotId} (mem : k ∈ s.la.stack) :
    ∃ top, s.la.stack.getLast? = some top ∧ s.jobClass k ≤ s.jobClass top := by
  obtain ⟨top, hs⟩ := Option.ne_none_iff_exists'.1 (mt List.getLast?_eq_none_iff.1 (List.ne_nil_of_mem mem))
  refine ⟨top, hs, ?_⟩
  by_cases same : k = top
  · rw [same]
  · exact (h.class_lt_top hs mem same).le

/-- R48: the job in the line position has a higher class than every suspended job. -/
theorem State.stackLawful.class_lt_held (h : s.stackLawful) {k : SlotId} (held : s.la.position.slot = some i)
    (mem : k ∈ s.la.stack) : s.jobClass k < s.jobClass i := by
  obtain ⟨top, hs, le⟩ := h.class_le_top mem
  exact lt_of_le_of_lt le (h.top_lt_held held hs)

/-- A change that takes jobs out of the stack, and may empty the line position. -/
theorem State.stackLawful.shrink (h : s.stackLawful) (stack : t.la.stack.Sublist s.la.stack)
    (held : ∀ i, t.la.position.slot = some i → s.la.position.slot = some i)
    (cls : ∀ k, k ∈ t.la.stack ∨ t.la.position.slot = some k → t.jobClass k = s.jobClass k)
    (begun : ∀ k ∈ t.la.stack, s.repeats k = true → t.repeats k = true)
    (repeating : ∀ k, t.la.position = .candidate k .stack ∨ t.jobIn k .gap = true → t.repeats k = true) :
    t.stackLawful := by
  refine ⟨?_, fun k hk => ?_, fun i hi top hs => ?_, repeating⟩
  · rw [List.map_congr_left fun k hk => cls k (.inl hk)]
    exact h.rising.sublist (stack.map _)
  · obtain ⟨low, repeats⟩ := h.suspended (stack.subset hk)
    exact ⟨cls k (.inl hk) ▸ low, begun k hk repeats⟩
  · have mem := List.mem_of_getLast? hs
    rw [cls top (.inl mem), cls i (.inr hi)]
    exact h.class_lt_held (held i hi) (stack.subset mem)

/-- A change of one slot that stands neither on the stack nor in the line position. -/
theorem State.stackLawful.elsewhere (h : s.stackLawful) (out : s.la.places.count i = 0)
    (others : ∀ k, k ≠ i → t.job k = s.job k) (stack : t.la.stack = s.la.stack)
    (position : t.la.position = s.la.position) (no_gap : t.jobIn i .gap ≠ true) : t.stackLawful := by
  rw [Arbiter.places_count] at out
  have suspended (k : SlotId) (hk : k ∈ t.la.stack) : k ≠ i := by
    rintro rfl
    have := List.count_pos_iff.2 (stack ▸ hk)
    omega
  have held (k : SlotId) (hk : s.la.position.slot = some k) : k ≠ i := by
    rintro rfl
    rw [if_pos hk] at out
    omega
  refine h.shrink (by rw [stack]) (fun k hk => position ▸ hk) (fun k hk => ?_) (fun k hk => ?_) fun k hk => ?_
  · obtain hk | hk := hk
    · exact State.jobClass_congr (others k (suspended k hk))
    · exact State.jobClass_congr (others k (held k (position ▸ hk)))
  · rw [State.repeats_congr (others k (suspended k hk))]; exact id
  · obtain candidate | gap := hk
    · rw [position] at candidate
      rw [State.repeats_congr (others k (held k (by rw [candidate]; rfl)))]
      exact h.repeating (.inl candidate)
    · have hk : k ≠ i := fun e => no_gap (e ▸ gap)
      rw [State.repeats_congr (others k hk)]
      rw [State.jobIn_congr (others k hk)] at gap
      exact h.repeating (.inr gap)

/-- A change that moves no job of the stack, leaves the line position, and puts no job in GAP. -/
theorem State.stackLawful.sameRanks (h : s.stackLawful) (ranks : s.SameRanks t) (stack : t.la.stack = s.la.stack)
    (position : t.la.position = s.la.position) (gap : ∀ k, t.jobIn k .gap = true → s.jobIn k .gap = true) :
    t.stackLawful := by
  refine h.shrink (by rw [stack]) (fun k hk => position ▸ hk) (fun k _ => ranks.jobClass k)
    (fun k _ => by rw [ranks.repeats]; exact id) fun k hk => ?_
  rw [ranks.repeats]
  exact h.repeating (hk.imp (fun candidate => position ▸ candidate) (gap k))

/-- A change of other blocks. -/
theorem State.lineLawful.of_blocks (h : s.lineLawful) (jobs : t.jobs = s.jobs) (la : t.la = s.la) : t.lineLawful := by
  have job (k : SlotId) : t.job k = s.job k := by simp only [State.job, jobs]
  refine ⟨h.1.sameRanks (fun k => by rw [job]) (by rw [la]) (by rw [la]) fun k gap => ?_, ?_⟩
  · rwa [← State.jobIn_congr (job k)]
  · rw [State.selectionLawful, la]
    exact h.2

theorem State.SameLine.stackLawful (same : s.SameLine t) (h : s.stackLawful) : t.stackLawful := by
  have gap (u : State) (k : SlotId) : u.jobIn k .gap = ((u.job k).map Job.stage).any fun x => x.2.1 == .gap := by
    rw [Option.any_map]; rfl
  refine h.sameRanks same.ranks same.stack same.position fun k => ?_
  rw [gap, gap, (same.slots k).job]
  exact id

theorem State.SameLine.lineLawful (same : s.SameLine t) (h : s.lineLawful) : t.lineLawful := by
  refine ⟨same.stackLawful h.1, ?_⟩
  rw [State.selectionLawful, same.position, same.stack, same.queues]
  exact h.2

/-! ### Leaving a place -/

/-- R63, R64: a job that leaves its place leaves the rest of the stack rising. -/
theorem State.stackLawful.vacate (h : s.stackLawful) (i : SlotId) : (s.vacate i).stackLawful := by
  have position : (s.la.without i).position = s.la.position ∨ (s.la.without i).position = .empty := by
    by_cases held : s.la.position.slot = some i
    · exact .inr (Arbiter.without_empty_of_held held)
    · exact .inl (s.la.without_elsewhere i held).1
  refine h.shrink ?_ (fun k hk => ?_) (fun _ _ => rfl) (fun _ _ => id)
    fun k hk => h.repeating (hk.imp_left fun hk => ?_)
  · rw [State.vacate_la, Arbiter.without_stack]; exact List.filter_sublist
  all_goals
    rw [State.vacate_la] at hk
    obtain same | empty := position
  · rwa [same] at hk
  · rw [empty] at hk; cases hk
  · rwa [same] at hk
  · rw [empty] at hk; cases hk

theorem State.stackLawful.dropJob (h : s.stackLawful) (i : SlotId) : (s.dropJob i).stackLawful := by
  refine (h.vacate i).elsewhere (s.la.without_count i) (fun k hk => State.freeSlot_job_ne _ i k hk) rfl rfl
    fun gap => ?_
  obtain ⟨j, hj, _⟩ := State.jobIn_iff.1 gap
  cases (State.freeSlot_job_self (s.vacate i) i).symm.trans hj

/-- R51: a job that leaves another place than the line position leaves nothing waiting beside an empty one. -/
theorem State.selectionLawful.vacate (h : s.selectionLawful) (elsewhere : s.la.position.slot ≠ some i) :
    (s.vacate i).selectionLawful := by
  intro empty
  rw [State.vacate_la, (s.la.without_elsewhere i elsewhere).1] at empty
  obtain ⟨stack, queues⟩ := h empty
  refine ⟨?_, fun c => ?_⟩
  · rw [State.vacate_la, Arbiter.without_stack, stack]; rfl
  · rw [State.vacate_la, Arbiter.without_queues, queues c]; rfl

/-! ### Selection -/

/-- R50: a job of a higher class than every other suspended one becomes the candidate. -/
theorem State.stackLawful.makeCandidate (h : s.stackLawful) {o : Origin}
    (above : ∀ k ∈ s.la.stack, k ≠ i → s.jobClass k < s.jobClass i) (origin : o = .stack → s.repeats i = true) :
    (s.makeCandidate i o).lineLawful := by
  have ranks : s.SameRanks (s.makeCandidate i o) := .modifyJob (s.vacate i) i _
  have stack : (s.makeCandidate i o).la.stack = s.la.stack.filter (· ≠ i) := s.la.without_stack i
  have mem {k : SlotId} (hk : k ∈ (s.makeCandidate i o).la.stack) : k ∈ s.la.stack ∧ k ≠ i := by
    simpa [stack] using hk
  refine ⟨⟨?_, fun k hk => ?_, fun k hk top hs => ?_, fun k hk => ?_⟩, fun empty => nomatch empty⟩
  · rw [List.map_congr_left fun k _ => ranks.jobClass k, stack]
    exact h.rising.sublist (List.filter_sublist.map _)
  · rw [ranks.jobClass, ranks.repeats]
    exact h.suspended (mem hk).1
  · cases Option.some.inj hk
    obtain ⟨old, other⟩ := mem (List.mem_of_getLast? hs)
    rw [ranks.jobClass, ranks.jobClass]
    exact above top old other
  · rw [ranks.repeats]
    obtain candidate | gap := hk
    · have same : i = k ∧ o = .stack := by simpa [State.makeCandidate] using candidate
      exact same.1 ▸ origin same.2
    · have hk : k ≠ i := by rintro rfl; exact State.modifyJob_not_gap (s.vacate k) k (by simp) gap
      have same := State.modifyJob_job_ne (s.vacate i) i k (fun x => { x with state := .starting }) hk
      exact h.repeating (.inr (State.jobIn_congr (s := s.vacate i) same .gap ▸ gap))

/-- R50, R51: selection in an empty line position. -/
theorem State.stackLawful.select (h : s.stackLawful) (places : s.arbiterLawful) : s.select.lineLawful := by
  obtain ⟨top, hs, choice⟩ | ⟨q, head, waits, below, choice⟩ | ⟨stack, queues, choice⟩ := s.choice_cases
  · rw [State.select_of_choice choice]
    exact h.makeCandidate (fun k hk other => h.class_lt_top hs hk other)
      fun _ => (h.suspended (List.mem_of_getLast? hs)).2
  · rw [State.select_of_choice choice]
    have cls := (State.arbiterLawful_iff.1 places head).placed.queue_class waits
    refine h.makeCandidate (fun k hk _ => ?_) fun stack => nomatch stack
    obtain ⟨top, hs, le⟩ := h.class_le_top hk
    rw [cls]
    exact lt_of_le_of_lt le (below top hs)
  · rw [State.select_of_none choice]
    exact ⟨h, fun _ => ⟨stack, queues⟩⟩

theorem State.stackLawful.selectIfEmpty (h : s.stackLawful) (places : s.arbiterLawful) :
    s.selectIfEmpty.lineLawful := by
  unfold State.selectIfEmpty
  split
  · exact h.select places
  · exact ⟨h, fun empty => absurd empty ‹_›⟩

/-! ### Displacement, preemption and joins -/

/-- R48, R54, R59: a repeating job that leaves the line position for one of a higher class is pushed on the stack. -/
theorem State.stackLawful.setAside (h : s.stackLawful) (held : s.la.position.slot = some i)
    (low : s.jobClass i < 3) (repeats : s.repeats i = true) {f : Job → Job}
    (rank : ∀ j, (f j).rank = j.rank := by intro _; rfl) :
    (State.modifyJob { s with la := (s.la.without i).pushStack i } i f).stackLawful := by
  have ranks : s.SameRanks (State.modifyJob { s with la := (s.la.without i).pushStack i } i f) :=
    .modifyJob { s with la := (s.la.without i).pushStack i } i f fun j _ => rank j
  have stack : (State.modifyJob { s with la := (s.la.without i).pushStack i } i f).la.stack =
      s.la.stack.filter (· ≠ i) ++ [i] := congrArg (· ++ [i]) (s.la.without_stack i)
  have empty : (s.la.without i).position = .empty := Arbiter.without_empty_of_held held
  refine ⟨?_, fun k hk => ?_, fun k hk => ?_, fun k hk => ?_⟩
  · rw [List.map_congr_left fun k _ => ranks.jobClass k, stack, List.map_append, List.pairwise_append]
    refine ⟨h.rising.sublist (List.filter_sublist.map _), List.pairwise_singleton _ _, fun c hc d hd => ?_⟩
    obtain ⟨k, hk, rfl⟩ := List.mem_map.1 hc
    obtain rfl : d = s.jobClass i := by simpa using hd
    exact h.class_lt_held held (List.mem_filter.1 hk).1
  · rw [ranks.jobClass, ranks.repeats]
    rw [stack, List.mem_append, List.mem_singleton] at hk
    obtain hk | rfl := hk
    · exact h.suspended (List.mem_filter.1 hk).1
    · exact ⟨low, repeats⟩
  · cases empty.symm ▸ (show (s.la.without i).position.slot = some k from hk)
  · rw [ranks.repeats]
    obtain candidate | gap := hk
    · cases empty.symm.trans candidate
    · obtain ⟨x, hx, gap⟩ := State.jobIn_iff.1 gap
      by_cases hk : k = i
      · exact hk ▸ repeats
      · exact h.repeating (.inr (State.jobIn_iff.2 ⟨x, (State.modifyJob_job_ne _ i k _ hk).symm.trans hx, gap⟩))

/-- R54: a displaced candidate waits where it came from. -/
theorem State.stackLawful.displace (h : s.stackLawful) {o : Origin} (candidate : s.la.position = .candidate i o)
    (low : s.jobClass i < 3) : (s.displace i o).stackLawful := by
  cases o with
  | queue =>
    exact (h.vacate i).elsewhere (s.la.without_count i) (fun k hk => State.modifyJob_job_ne _ i k _ hk) rfl rfl
      (State.modifyJob_not_gap _ i (by simp))
  | stack =>
    exact h.setAside (by rw [candidate]; rfl) low (h.repeating (.inl candidate))

/-- R59: the preempted holder waits on the stack, and the line position is empty. -/
theorem State.arbiterLawful.setAside (h : s.arbiterLawful) (gap : s.jobIn i .gap = true)
    (holder : s.la.position = .holder i) :
    (State.modifyJob { s with la := (s.la.without i).pushStack i } i fun j =>
      { j with state := .suspended, resumeFull := true }).arbiterLawful := by
  have placed := (State.arbiterLawful_iff.1 h i).placed
  obtain ⟨j, hj, gap⟩ := State.jobIn_iff.1 gap
  have quiet : s.QuietAt i := h.quietAt fun j' hj' => by cases hj.symm.trans hj'; simp [gap]
  have started := placed.started hj (by simp [gap]) (by simp [holder])
  exact quiet.vacate.suspend (f := fun j => { j with state := .suspended, resumeFull := true }) hj started rfl rfl rfl

theorem State.stackLawful.preempt (h : s.stackLawful) (places : s.arbiterLawful) (gap : s.jobIn i .gap = true)
    (holder : s.la.position = .holder i) (low : s.jobClass i < 3) : (s.preempt i).lineLawful :=
  (h.setAside (by rw [holder]; rfl) low (h.repeating (.inr gap))).select (places.setAside gap holder)

/-- R62: what a join does to the line position. -/
theorem State.stackLawful.reactToJoin (h : s.stackLawful) (places : s.arbiterLawful) (c : Class) :
    (s.reactToJoin c).lineLawful := by
  have low {x : Class} (lt : x < c) : x < 3 := lt_of_lt_of_le lt (Fin.le_last c)
  have stays (held : s.la.position ≠ .empty) : s.lineLawful := ⟨h, fun empty => absurd empty held⟩
  unfold State.reactToJoin
  split
  · exact h.select places
  · rename_i candidate
    split
    · exact (h.displace candidate (low ‹_›)).select (places.displace candidate).1
    · exact stays (by simp [candidate])
  · rename_i holder
    split
    · rename_i reaction
      obtain ⟨gap, lt⟩ := Bool.and_eq_true_iff.1 reaction
      exact h.preempt places gap holder (low (by simpa using lt))
    · exact stays (by simp [holder])

/-- R47, R62: a job that stands in no place joins the queue of its class, at whichever end. -/
theorem State.Lifted.join (places : s.Lifted i) (h : s.stackLawful) (hj : s.job i = some j) {l : List SlotId}
    (mem : i ∈ l) (once : l.count i = s.la.queues[j.cls].count i + 1)
    (others : ∀ k, k ≠ i → l.count k = s.la.queues[j.cls].count k) (c : Class) :
    (State.reactToJoin (State.modifyJob { s with la := { s.la with queues := s.la.queues.set j.cls l } } i
      fun x => { x with state := .queued }) c).lineLawful := by
  refine State.stackLawful.reactToJoin ?_ (places.enqueue hj mem once others) c
  exact h.elsewhere places.out (fun k hk => State.modifyJob_job_ne _ i k _ hk) rfl rfl
    (State.modifyJob_not_gap _ i (by simp))

/-- R38, R62: a job that stands in no place joins the tail of its class queue. -/
theorem State.Lifted.joinTail_line (places : s.Lifted i) (h : s.stackLawful) (hj : s.job i = some j) :
    (s.joinTail i).lineLawful := by
  rw [State.joinTail, State.jobClass_of_job hj]
  exact places.join h hj (by simp) (by simp) (fun k hk => by simp [hk.symm]) _

theorem State.Lifted.joinHead_line (places : s.Lifted i) (h : s.stackLawful) (hj : s.job i = some j) :
    (s.joinHead i).lineLawful := by
  rw [State.joinHead, State.jobClass_of_job hj]
  exact places.join h hj (by simp) (by simp) (fun k hk => by simp [hk.symm]) _

/-! ### Ends -/

/-- R88, R51: the end of a job that is not driven. -/
theorem State.lineLawful.endSilently (h : s.lineLawful) (places : s.QuietAt i) : (s.endSilently i).lineLawful := by
  unfold State.endSilently
  split
  · exact (h.1.dropJob i).select places.dropJob
  · exact ⟨h.1.dropJob i, h.2.vacate ‹_›⟩

theorem State.lineLawful.endJob (h : s.lineLawful) (places : s.QuietAt i) (o : JobOutcome) :
    (s.endJob i o).lineLawful := by
  obtain ⟨rest, _⟩ := s.notify_rest i o
  exact (h.of_blocks (by rw [rest]) (by rw [rest])).endSilently (places.congr fun k => .notify s i o k)

/-! ### Frame ends and collisions -/

/-- R56: a BURST or HELD job enters GAP once its drive is over. -/
theorem State.lineLawful.enterGap (h : s.lineLawful) (places : s.QuietAt i) (hj : s.job i = some j)
    (sending : j.state = .sending) (kind : j.kind ≠ .oneshot) : (s.enterGap i).lineLawful := by
  obtain ⟨holder, started⟩ := places.placed.sending hj sending
  have gap_places : (s.modifyJob i fun x => { x with state := .gap }).arbiterLawful :=
    places.revise hj holder (by simp [started]) (places.placed.deadline j hj) (by simp)
  have ranks : s.SameRanks (s.modifyJob i fun x => { x with state := .gap }) := .modifyJob s i _
  have in_gap : (s.modifyJob i fun x => { x with state := .gap }).jobIn i .gap = true :=
    State.jobIn_iff.2 ⟨{ j with state := .gap }, by simp [hj], rfl⟩
  have gap : (s.modifyJob i fun x => { x with state := .gap }).stackLawful := by
    refine h.1.shrink (List.Sublist.refl _) (fun _ => id) (fun k _ => ranks.jobClass k)
      (fun k _ => by rw [ranks.repeats]; exact id) fun k hk => ?_
    rw [ranks.repeats]
    by_cases same : k = i
    · subst k
      exact State.jobSatisfies_eq_true.2 ⟨j, hj, by simp [started, kind]⟩
    · refine h.1.repeating (hk.imp_right fun gap => ?_)
      rwa [State.jobIn_congr (State.modifyJob_job_ne s i k _ same)] at gap
  unfold State.enterGap
  dsimp only
  split
  · rename_i above
    obtain ⟨c, lt, _⟩ := Arbiter.queuedAbove_iff.1 above
    exact gap.preempt gap_places in_gap holder (lt_of_lt_of_le lt (Fin.le_last c))
  · refine State.SameLine.lineLawful (.la _ rfl rfl rfl rfl) ⟨gap, fun empty => ?_⟩
    cases holder.symm.trans empty

/-- R64, R65, R79: a job that has left the line position waits out its backoff. -/
theorem State.QuietAt.backOff (h : s.QuietAt i) (sending : s.jobIn i .sending = true) (ms : Nat) :
    (State.modifyJob { s with la := (s.la.without i).pushBackoff i } i fun x =>
      { x with state := .backoff, backoffTimer := some ms }).arbiterLawful := by
  obtain ⟨j, hj, sending⟩ := State.jobIn_iff.1 sending
  obtain ⟨_, started⟩ := h.placed.sending hj sending
  refine h.vacate.land (f := fun x => { x with state := .backoff, backoffTimer := some ms }) hj
    (fun k hk => .pushBackoff hk ?_) (Arbiter.pushBackoff_count h.vacate.out) (Arbiter.mem_pushBackoff _ i)
    (by simp [started]) (h.placed.deadline j hj) (by simp)
  have once := (h.vacate.others k hk).placed.count_le
  rw [Arbiter.places_count] at once
  omega

theorem State.lineLawful.enterBackoff (h : s.lineLawful) (places : s.QuietAt i) (sending : s.jobIn i .sending = true) :
    (s.enterBackoff i).lineLawful := by
  refine State.stackLawful.select ?_ (places.backOff sending _)
  exact (h.1.vacate i).elsewhere (s.la.without_count i) (fun k hk => State.modifyJob_job_ne _ i k _ hk) rfl rfl
    (State.modifyJob_not_gap _ i (by simp))

/-- R75: only a BURST or HELD job goes on from its frame end. -/
theorem Job.kind_of_endAtFrame_none (h : j.endAtFrame = none) : j.kind ≠ .oneshot := by
  intro kind
  have finished : j.finished = true := by simp [Job.finished, kind]
  cases pending : j.endPending with
  | none => simp [Job.endAtFrame, finished, pending] at h
  | some e =>
    simp only [Job.endAtFrame, pending] at h
    split at h <;> cases h

/-- R74 to R76: DONE at the job table, once the drive is over. -/
theorem State.lineLawful.frameEnd (h : s.lineLawful) (places : s.QuietAt i) (sending : s.jobIn i .sending = true)
    (form : Form) : (s.frameEnd i form).lineLawful := by
  obtain ⟨j, hj, sending⟩ := State.jobIn_iff.1 sending
  unfold State.frameEnd
  rw [hj]
  dsimp only
  have told : s.SameLine (if form = .full then s.deliver j.localEvent else s) := by
    split
    · exact .receives (.deliver s _)
    · exact .refl s
  have still : (if form = .full then s.deliver j.localEvent else s).job i = some j := by
    split
    · rw [State.deliver_job, hj]
    · exact hj
  generalize (if form = .full then s.deliver j.localEvent else s) = s1 at told still
  have quiet := places.congr told.slots
  have line := told.lineLawful h
  split
  · exact line.endSilently quiet
  · have counted : s1.SameLine (s1.modifyJob i Job.countSent) := .modifyJob s1 i
    split
    · exact (counted.lineLawful line).endJob (quiet.congr counted.slots) _
    · exact (counted.lineLawful line).enterGap (j := j.countSent) (quiet.congr counted.slots) (by simp [still]) sending
        (Job.kind_of_endAtFrame_none ‹_›)

/-- R79: COLLIDED at the job table, once the drive is over. -/
theorem State.lineLawful.collided (h : s.lineLawful) (places : s.QuietAt i) (sending : s.jobIn i .sending = true) :
    (s.collided i).lineLawful := by
  obtain ⟨j, hj, sending⟩ := State.jobIn_iff.1 sending
  unfold State.collided
  rw [hj]
  dsimp only
  split
  · exact h.endSilently places
  · have counted : s.SameLine (s.modifyJob i Job.countCollision) := .modifyJob s i
    have quiet := places.congr counted.slots
    split
    · exact (counted.lineLawful h).endJob quiet _
    · exact (counted.lineLawful h).enterBackoff quiet
        (State.jobIn_iff.2 ⟨j.countCollision, by simp [hj], sending⟩)

/-! ### Frame starts -/

/-- R25: the class and the kind at a frame start are those of the record. -/
theorem Job.atFrameStart_rank (j : Job) : j.atFrameStart.cls = j.cls ∧ j.atFrameStart.kind = j.kind ∧
    j.atFrameStart.started = true ∧ j.atFrameStart.state = .sending := by
  rw [j.atFrameStart_eq]
  exact ⟨rfl, rfl, rfl, rfl⟩

/-- R53, R57: a frame start makes the job in the line position the holder. -/
theorem State.lineLawful.frameStart (h : s.lineLawful) (start : s.mayStart i) : (s.frameStart i).lineLawful := by
  have held := start.held
  unfold State.frameStart
  split
  case h_2 => exact h
  rename_i j pr hj _
  refine ⟨?_, fun empty => nomatch empty⟩
  have begun : (s.modifyJob i Job.atFrameStart).job i = some j.atFrameStart := by
    rw [State.modifyJob_job_self, hj]; rfl
  obtain ⟨cls, kind, started, sends⟩ := j.atFrameStart_rank
  have other (k : SlotId) (hk : k ≠ i) := State.modifyJob_job_ne s i k Job.atFrameStart hk
  have same_class (k : SlotId) : (s.modifyJob i Job.atFrameStart).jobClass k = s.jobClass k := by
    by_cases hk : k = i
    · subst k
      rw [State.jobClass_of_job begun, State.jobClass_of_job hj, cls]
    · exact State.jobClass_congr (other k hk)
  have repeats (k : SlotId) (was : s.repeats k = true) : (s.modifyJob i Job.atFrameStart).repeats k = true := by
    by_cases hk : k = i
    · subst k
      obtain ⟨j', hj', test⟩ := State.jobSatisfies_eq_true.1 was
      cases hj.symm.trans hj'
      refine State.jobSatisfies_eq_true.2 ⟨_, begun, ?_⟩
      rw [started, kind]
      exact (Bool.and_eq_true_iff.1 test).2
    · rwa [State.repeats_congr (other k hk)]
  refine h.1.shrink (List.Sublist.refl _) (fun k hk => hk ▸ held) (fun k _ => same_class k) (fun k _ => repeats k)
    fun k hk => repeats k ?_
  obtain candidate | gap := hk
  · cases candidate
  · have hk : k ≠ i := by
      rintro rfl
      obtain ⟨x, hx, gap⟩ := State.jobIn_iff.1 gap
      cases begun.symm.trans hx
      cases sends.symm.trans gap
    exact h.1.repeating (.inr (State.jobIn_congr (other k hk) .gap ▸ gap))

/-! ### Session close and merging -/

/-- R44, R66, R83: a close at one slot; nothing is selected yet. -/
theorem State.stackLawful.closeJob (h : s.stackLawful) (p : Port) (cut : Bool) (i : SlotId) :
    (s.closeJob p cut i).stackLawful := by
  obtain ⟨_, same⟩ | ⟨j, hj, _, ⟨_, _, ended⟩ | ⟨_, _, orphan⟩ | ⟨_, ended⟩⟩ := s.closeJob_cases p cut i
  · rwa [same]
  · rw [ended]
    exact State.stackLawful.dropJob (s := s.stopDrive) h i
  · rw [orphan]
    exact State.SameLine.stackLawful (.modifyJob s i) h
  · rw [ended]
    exact h.dropJob i

/-- R66: selection runs once, after all the removals. -/
theorem State.stackLawful.closeJobs (h : s.stackLawful) (places : s.arbiterLawful) (p : Port) (cut : Bool) :
    (s.closeJobs p cut).lineLawful := by
  have fold (slots : List SlotId) (u : State) (hu : u.stackLawful ∧ u.arbiterLawful) :
      (slots.foldl (State.closeJob p cut) u).stackLawful ∧ (slots.foldl (State.closeJob p cut) u).arbiterLawful := by
    induction slots generalizing u with
    | nil => exact hu
    | cons i slots ih => exact ih _ ⟨hu.1.closeJob p cut i, hu.2.closeJob p cut i⟩
  obtain ⟨stack, lawful⟩ := fold allSlots s ⟨h, places⟩
  exact stack.selectIfEmpty lawful

/-- R31 to R33: a merge into an unstarted job, which has not begun its repetitions. -/
theorem State.lineLawful.mergeInto (h : s.lineLawful) (places : s.arbiterLawful) (hj : s.job i = some j)
    (unstarted : j.unstarted = true) (x : Submission) (pr : Profile) (tag : Byte) :
    (s.mergeInto i j x pr tag).lineLawful := by
  have waits : (j.state = .queued ∨ j.state = .starting) ∧ j.started = false := by
    simpa [Job.unstarted] using unstarted
  obtain ⟨state, fresh⟩ := waits
  have only {P : Job → Prop} (hP : P j) (j' : Job) (hj' : s.job i = some j') : P j' := by
    cases hj.symm.trans hj'; exact hP
  have no_gap := State.modifyJob_not_gap s i (f := fun y => y.merge x pr tag)
    (only (by obtain state | state := state <;> simp [Job.merge, state]))
  have others (k : SlotId) (hk : k ≠ i) := State.modifyJob_job_ne s i k (fun y => y.merge x pr tag) hk
  unfold State.mergeInto
  dsimp only
  split
  · rename_i same
    have ranks : s.SameRanks (s.modifyJob i fun y => y.merge x pr tag) :=
      .modifyJob s i _ (only (by simp [Job.rank, Job.merge, same, fresh]))
    have merged : (s.modifyJob i fun y => y.merge x pr tag).lineLawful := by
      refine ⟨h.1.sameRanks ranks rfl rfl fun k gap => ?_, h.2⟩
      have hk : k ≠ i := by rintro rfl; exact no_gap gap
      rwa [State.jobIn_congr (others k hk)] at gap
    split
    · exact State.SameLine.lineLawful (.la _ rfl rfl rfl rfl) merged
    · exact merged
  · have quiet : s.QuietAt i := places.quietAt (only (by obtain state | state := state <;> simp [state]))
    have lifted : ((s.modifyJob i fun y => y.merge x pr tag).vacate i).Lifted i :=
      quiet.vacate.modifyJob (only fun _ => fresh)
    have law : ((s.modifyJob i fun y => y.merge x pr tag).vacate i).stackLawful :=
      (h.1.vacate i).elsewhere (s.la.without_count i) others rfl rfl no_gap
    exact lifted.joinTail_line (j := j.merge x pr tag) law (by simp [hj])

/-! ### The changes -/

theorem State.reset_lineLawful : State.reset.lineLawful := ⟨State.reset_stackLawful, State.reset_selectionLawful⟩

theorem State.JobStep.lineLawful (h : s.JobStep t) (places : s.arbiterLawful) (hs : s.lineLawful) : t.lineLawful := by
  have lawful := State.arbiterLawful_iff.1 places
  have stopped : s.stopDrive.lineLawful := hs.of_blocks rfl rfl
  have sends {d : Drive} (driving : s.tx.drive = some d) : s.jobIn d.slot .sending = true :=
    (lawful d.slot).drives.2 ⟨d, driving, rfl⟩
  cases h with
  | nothing => exact hs
  | reset straps => exact State.reset_lineLawful.of_blocks rfl rfl
  | frameStart i start => exact hs.frameStart start
  | frameEnd d driving => exact stopped.frameEnd (places.stopDrive ⟨d, driving, rfl⟩) (sends driving) _
  | collided d driving => exact stopped.collided (places.stopDrive ⟨d, driving, rfl⟩) (sends driving)
  | rejoined i j hj backoff =>
    have quiet : s.QuietAt i := places.quietAt fun j' hj' => by cases hj.symm.trans hj'; simp [backoff]
    have stopped : (s.vacate i).SameLine ((s.vacate i).modifyJob i fun j => { j with backoffTimer := none }) :=
      .modifyJob _ i
    exact (quiet.vacate.modifyJob (f := fun j => { j with backoffTimer := none })
      (lawful i).placed.deadline).joinHead_line (j := { j with backoffTimer := none })
      (stopped.stackLawful (hs.1.vacate i)) (by simp [hj])
  | ended i o quiet =>
    refine hs.endJob (places.quietAt fun j hj sending => ?_) o
    obtain state | deadline := quiet j hj
    · exact state sending
    · have fresh := (lawful i).placed.deadline j hj deadline
      cases ((lawful i).placed.sending hj sending).2.symm.trans fresh
  | accepted p i x pr tag _ free _ =>
    have out := (lawful i).placed.once
    rw [free] at out
    have filled := s.fillSlot_job_self i (x.job p (s.port p).epoch pr tag)
    have law : (s.fillSlot i (x.job p (s.port p).epoch pr tag)).stackLawful := by
      refine hs.1.elsewhere out (fun k hk => s.fillSlot_job_ne i k _ hk) rfl rfl fun gap => ?_
      obtain ⟨j, hj, state⟩ := State.jobIn_iff.1 gap
      cases filled.symm.trans hj
      cases state
    exact (places.fillSlot free _ fun _ => rfl).joinTail_line law filled
  | merged i j x pr tag hj unstarted => exact hs.mergeInto places hj unstarted x pr tag
  | subscribed | ringPlaced | opened | deselected => exact hs.of_blocks rfl rfl
  | closed p cut r status body =>
    have closed := hs.1.closeJobs places p cut
    have rest : (s.closePort p cut).jobs = (s.closeJobs p cut).jobs ∧
        (s.closePort p cut).la = (s.closeJobs p cut).la := by
      generalize hu : s.closeJobs p cut = u
      rw [State.closePort_eq s p cut hu]
      exact ⟨rfl, rfl⟩
    obtain ⟨jobs, la⟩ := rest
    have torn : (s.closePort p cut).lineLawful := closed.of_blocks jobs la
    exact State.SameLine.lineLawful (.modifyPort _ p _) torn

end Sys2Proof.Machine

section
open Sys2Proof Sys2Proof.Machine

/-- Settles O55: between two selections the law of the stack holds with the line position empty, and the places are
those of O54. -/
theorem stackAndSelectionStayLawful : Obligations.StackAndSelectionStayLawful := by
  intro s t places stack selection h
  obtain ⟨_, line⟩ := step_keeps_line (law := fun s => s.arbiterLawful ∧ s.lineLawful)
    (fun _ _ same ⟨places, line⟩ => ⟨places.congr same.slots, same.lineLawful line⟩)
    (fun _ _ change ⟨places, line⟩ => ⟨change.arbiterLawful places, change.lineLawful places line⟩) h
    ⟨places, stack, selection⟩
  exact line

end
end

section
/-! PROOFS. The guard and the repeat period (R52, R53, R55, R57), the candidate that selection makes (R50), the end of a
job (R63, R64, R88, R89, R102), and the bytes of LINE_QUERY (R67, R184). -/

-- The proofs run one after another, for the memory limit of the check.
set_option Elab.async false

namespace Sys2Proof.Machine

variable {s : State} {i : SlotId} {j : Job}

/-! ### The guard and the repeat period -/

theorem Arbiter.guardComplete_iff {a : Arbiter} :
    a.guardComplete = true ↔ ∃ g, a.guard = some g ∧ g.target ≤ g.count := by
  unfold Arbiter.guardComplete
  split <;> simp [*]

theorem Arbiter.guardComplete_of_guard {a : Arbiter} {g : GuardCount} (guard : a.guard = some g) :
    a.guardComplete = true ↔ g.target ≤ g.count := by simp [Arbiter.guardComplete_iff, guard]

theorem execGuardComplete_short (short : ¬s.la.guardComplete = true) : execGuardComplete s = .next s := if_neg short

section
variable (complete : s.la.guardComplete = true)
include complete

/-- R53: the candidate starts. -/
theorem execGuardComplete_candidate {o : Origin} (candidate : s.la.position = .candidate i o) :
    execGuardComplete s = .next (s.frameStart i) := by
  simp only [execGuardComplete, if_pos complete, candidate]

/-- R57: a holder in GAP starts once its period is done. -/
theorem execGuardComplete_holder (holder : s.la.position = .holder i) (gap : s.jobIn i .gap = true) :
    execGuardComplete s = .next (if s.la.periodDone then s.frameStart i else s) := by
  simp only [execGuardComplete, if_pos complete, holder, gap, true_and]
  split <;> rfl

end

/-- R55, R57: the period of a holder expires. -/
theorem execRepeatPeriodExpiry_holder (due : s.la.repeatTimer = some 0) (holder : s.la.position = .holder i) :
    execRepeatPeriodExpiry s = if s.jobIn i .gap = true ∧ s.la.guardComplete = true
      then .next (s.endPeriod.frameStart i) else .next s.endPeriod := by
  simp only [execRepeatPeriodExpiry, if_pos (Timer.due_iff.2 due), holder]

theorem execRepeatPeriodExpiry_early (early : s.la.repeatTimer ≠ some 0) : execRepeatPeriodExpiry s = .next s :=
  if_neg fun due => early (Timer.due_iff.1 due)

/-! ### The candidate -/

/-- R46: a job that selection chooses is in no backoff. -/
theorem State.choice_not_backoff (places : s.placesLawful) {o : Origin} (choice : s.choice = some (i, o)) :
    i ∉ s.la.backoff := by
  intro member
  have once := List.nodup_iff_count_le_one.1 places.1 i
  have there := List.count_pos_iff.2 member
  rw [Arbiter.places_count] at once
  obtain ⟨_, stack⟩ | ⟨_, q, queue⟩ := State.choice_mem choice
  · have := List.count_pos_iff.2 stack
    omega
  · have := Arbiter.queued_pos queue
    omega

/-- R50, R52: the chosen job becomes the candidate, with its guard at zero. -/
theorem State.select_chosen (places : s.placesLawful) {o : Origin} (choice : s.choice = some (i, o)) {pr : Profile}
    (hj : s.job i = some j) (hp : s.profile j.profile = some pr) :
    s.select = { s with la := { s.la with
        queues := s.select.la.queues, stack := s.select.la.stack, position := .candidate i o
        guard := some { count := 0, target := pr.guardUs }, repeatTimer := none
        periodDone := false } }.modifyJob i fun x => { x with state := .starting } := by
  have backoff : (s.la.without i).backoff = s.la.backoff := by
    rw [Arbiter.without_backoff, List.filter_eq_self]
    intro k hk
    have other : k ≠ i := by rintro rfl; exact State.choice_not_backoff places choice hk
    simpa using other
  have target (a : Arbiter) :
      (State.modifyJob { s with la := a } i fun x => { x with state := .starting }).guardTarget i = pr.guardUs := by
    have starts : (State.modifyJob { s with la := a } i fun x => { x with state := .starting }).job i =
        some { j with state := .starting } := by
      rw [State.modifyJob_job_self]
      exact congrArg (Option.map _) hj
    simp only [State.guardTarget, State.jobProfile, starts, Option.bind_some]
    exact congrArg (fun x => (x.map Profile.guardUs).getD 0) hp
  rw [State.select_of_choice choice]
  simp only [State.makeCandidate, State.startGuard, target, backoff]
  rfl

theorem State.select_places (choice : s.choice = some (i, o)) :
    (∀ c : Class, s.select.la.queues[c] = s.la.queues[c].filter (· ≠ i)) ∧
      s.select.la.stack = s.la.stack.filter (· ≠ i) := by
  rw [State.select_of_choice choice]
  exact ⟨fun c => s.la.without_queues i c, s.la.without_stack i⟩

/-! ### The end of a job -/

/-- R102, R177: a notice at the tail of a port's queue makes its attention due while its session is open. -/
theorem State.pushNotice_eq (s : State) (p : Port) (n : Notice) : s.pushNotice p n = { s with
    ports := s.ports.set p { s.port p with notices := (s.port p).notices ++ [n], attn := (s.port p).isOpen } } := by
  have due : (s.modifyPort p fun h => { h with notices := h.notices ++ [n] }).attentionDue p = (s.port p).isOpen := by
    simp [State.attentionDue]
  rw [State.pushNotice, State.attend, due, State.modifyPort_modifyPort]
  rfl

/-- R89: the notice of a job's end, where one is called for. -/
theorem State.notify_eq (hj : s.job i = some j) (o : JobOutcome) : s.notify i o =
    if j.orphan = false ∧ j.epoch = (s.port j.owner).epoch
      then s.pushNotice j.owner (j.notice i (s.ticket i) o s.timestamp) else s := by
  simp only [State.notify, hj, State.mayNotify, Bool.and_eq_true, Bool.not_eq_true', beq_iff_eq]

/-! ### LINE_QUERY -/

/-- Two bytes for each member of a list, read by the member's index. -/
theorem getElem?_flatMap_pair {α : Type} (f g : α → Byte) (l : List α) (k : Nat) :
    (l.flatMap fun x => [f x, g x])[2 * k]? = l[k]?.map f ∧
      (l.flatMap fun x => [f x, g x])[2 * k + 1]? = l[k]?.map g := by
  induction l generalizing k with
  | nil => simp
  | cons x l ih =>
    cases k with
    | zero => simp
    | succ k => simpa [Nat.mul_succ] using ih k

/-- R184: the bytes of up to three pairs, and zeros after them. -/
theorem getElem?_padTo_pairs {α : Type} (f g : α → Byte) {l : List α} (short : l.length ≤ 3) :
    (padTo 6 (l.flatMap fun x => [f x, g x])).length = 6 ∧
      (∀ k x, l[k]? = some x → (padTo 6 (l.flatMap fun x => [f x, g x]))[2 * k]? = some (f x) ∧
        (padTo 6 (l.flatMap fun x => [f x, g x]))[2 * k + 1]? = some (g x)) ∧
      ∀ k, 2 * l.length ≤ k → k < 6 → (padTo 6 (l.flatMap fun x => [f x, g x]))[k]? = some 0 := by
  have length : (l.flatMap fun x => [f x, g x]).length = 2 * l.length := by simp [Nat.mul_comm]
  rw [padTo_of_le (by omega)]
  refine ⟨by simp only [List.length_append, List.length_replicate]; omega, fun k x hx => ?_, fun k low high => ?_⟩
  · obtain ⟨hk, _⟩ := List.getElem?_eq_some_iff.1 hx
    obtain ⟨first, second⟩ := getElem?_flatMap_pair f g l k
    rw [List.getElem?_append_left (by omega), List.getElem?_append_left (by omega), first, second, hx]
    exact ⟨rfl, rfl⟩
  · rw [List.getElem?_append_right (by omega)]
    exact List.getElem?_replicate_of_lt (by omega)

/-- R67, R184: the line position in LINE_QUERY. -/
theorem State.positionBytes_eq (s : State) :
    (s.la.position = .empty → s.positionBytes = [0, 0, 0, 0, 0, 0]) ∧
    (∀ i o j, s.la.position = .candidate i o → s.job i = some j → s.positionBytes =
      [1, byte i.val, byte j.cls.val, j.state.code, if o = .stack then 1 else 0, 0]) ∧
    ∀ i j, s.la.position = .holder i → s.job i = some j → s.positionBytes =
      [2, byte i.val, byte j.cls.val, j.state.code, 0, if j.state = .gap ∧ s.la.periodDone = true then 1 else 0] := by
  refine ⟨fun empty => ?_, fun i o j candidate hj => ?_, fun i j holder hj => ?_⟩
  · simp only [State.positionBytes, empty]
    rfl
  · have origin : o.code = if o = .stack then 1 else 0 := by cases o <;> rfl
    simp only [State.positionBytes, candidate, State.jobClass_of_job hj, hj, ← origin]
    rfl
  · simp only [State.positionBytes, holder, State.jobClass_of_job hj, hj, State.jobIn, State.jobSatisfies_of_job hj,
      boolByte, Bool.and_eq_true, beq_iff_eq]
    rfl

end Sys2Proof.Machine

section
open Sys2Proof Sys2Proof.Machine

/-- Settles O21, by what stands in the line position. -/
theorem guardAndPeriodStartFrames : Obligations.GuardAndPeriodStartFrames := by
  refine ⟨fun s g guard reached => ?_, fun s g guard short => ?_, fun s none => ?_, fun s i j due holder hj => ?_,
    fun s early => execRepeatPeriodExpiry_early early⟩
  · have complete := (Arbiter.guardComplete_of_guard guard).2 reached
    exact ⟨fun i o candidate => execGuardComplete_candidate complete candidate, fun i j holder hj gap =>
      execGuardComplete_holder complete holder (State.jobIn_iff.2 ⟨j, hj, gap⟩)⟩
  · exact execGuardComplete_short fun complete =>
      not_le.2 short ((Arbiter.guardComplete_of_guard guard).1 complete)
  · refine execGuardComplete_short fun complete => ?_
    obtain ⟨g, guard, _⟩ := Arbiter.guardComplete_iff.1 complete
    cases none.symm.trans guard
  · have expiry := execRepeatPeriodExpiry_holder due holder
    have in_gap : s.jobIn i .gap = true ↔ j.state = .gap := by
      rw [State.jobIn, State.jobSatisfies_of_job hj, beq_iff_eq]
    refine ⟨fun g gap guard reached => ?_, fun g gap guard short => ?_, fun sending => ?_⟩
    · exact expiry.trans (if_pos ⟨in_gap.2 gap, (Arbiter.guardComplete_of_guard guard).2 reached⟩)
    · exact expiry.trans (if_neg fun both => not_le.2 short ((Arbiter.guardComplete_of_guard guard).1 both.2))
    · exact expiry.trans (if_neg fun both => by cases sending.symm.trans (in_gap.1 both.1))

/-- Settles O25: the choice case by case. -/
theorem selectionTakesTheMostUrgent : Obligations.SelectionTakesTheMostUrgent := by
  intro s places _
  refine ⟨fun top hs above => ?_, fun q head rest queue highest below => ?_, fun stack queues =>
    State.select_of_none (State.choice_nothing stack queues)⟩
  · have choice := State.choice_stack hs above
    exact fun j pr hj hp => ⟨State.select_chosen places choice hj hp, State.select_places choice⟩
  · have choice := State.choice_queue queue highest below
    exact fun j pr hj hp => ⟨State.select_chosen places choice hj hp, State.select_places choice⟩

/-- Settles O27: the notice, then the place and the slot, then selection. -/
theorem jobEndWritesNoticeAndFreesSlot : Obligations.JobEndWritesNoticeAndFreesSlot := by
  intro s i j o hj h note noted told freed
  have notified : s.notify i o = told := by
    rw [State.notify_eq hj, State.pushNotice_eq]
    rfl
  have same : told.la = s.la ∧ told.ticket i = s.ticket i := by
    obtain ⟨rest, _⟩ := s.notify_rest i o
    rw [← notified, rest]
    exact ⟨rfl, rfl⟩
  obtain ⟨la, ticket⟩ := same
  have dropped : told.dropJob i = freed := by
    have named : freed = { told with
        jobs := told.jobs.set i { ticket := told.ticket i, job := none }, la := told.la.without i } := by
      rw [la, ticket]
    rw [named]
    rfl
  have ends : s.endJob i o = if s.la.position.slot = some i then freed.select else freed := by
    rw [State.endJob, notified, State.endSilently, dropped, la]
  exact ⟨fun held => ends.trans (if_pos held), fun elsewhere => ends.trans (if_neg elsewhere),
    fun c => s.la.without_queues i c, s.la.without_stack i, s.la.without_backoff i,
    fun held => s.la.without_held i held, fun elsewhere => s.la.without_elsewhere i elsewhere⟩

/-- Settles O33, byte by byte. -/
theorem lineQueryShowsArbiter : Obligations.LineQueryShowsArbiter := by
  intro s p tag asks short
  obtain ⟨empty, candidate, holder⟩ := s.positionBytes_eq
  obtain ⟨length, pairs, zeros⟩ := getElem?_padTo_pairs (fun i : SlotId => byte i.val)
    (fun i => byte (s.jobClass i).val) short
  have quiet : boolByte s.rx.reportsQuiet = if s.rx.level = .space then 1 else 0 := by
    simp only [boolByte, Receiver.reportsQuiet, beq_iff_eq]
  refine ⟨s.positionBytes, byte s.la.stack.length :: padTo 6 (s.la.stack.flatMap fun i =>
    [byte i.val, byte (s.jobClass i).val]), ?_, empty, candidate, holder, by rw [List.length_cons, length], rfl,
    fun k i j hk hj => ?_, fun k low high => ?_⟩
  · refine (State.takeRequest_asks _ asks).trans ?_
    rw [← quiet]
    simp only [lineQueryReply, State.lineBody, List.append_assoc]
    rfl
  · rw [Nat.add_comm 1, Nat.add_comm 2, List.getElem?_cons_succ, List.getElem?_cons_succ, ← State.jobClass_of_job hj]
    exact pairs k i hk
  · obtain ⟨k, rfl⟩ := Nat.exists_eq_add_of_le' (Nat.le_of_add_right_le low)
    exact zeros k (by omega) (by omega)

end
end

section
/-! PROOFS. A transmission's form (R69), its completion (R73 to R76) and its collision (R77 to R80): when the two events
are due, the outcome with which the counted job ends, and where a job goes that does not end. -/

-- The proofs run one after another, for the memory limit of the check.
set_option Elab.async false

namespace Sys2Proof.Machine

variable {s : State} {i : SlotId} {j : Job} {d : Drive}

/-! ### The form of a transmission -/

/-- R69: the four conditions for a marker. -/
theorem Job.nextForm_eq_marker {pr : Profile} : j.nextForm pr = .marker ↔
    (j.kind = .burst ∨ j.kind = .held) ∧ pr.repeatForm = .marker ∧ 1 ≤ j.sent ∧ j.resumeFull = false := by
  have repeats : j.kind ≠ .oneshot ↔ j.kind = .burst ∨ j.kind = .held := by cases j.kind <;> simp
  simp only [Job.nextForm, repeats, ite_eq_left_iff, reduceCtorEq, imp_false, not_not]

theorem Form.eq_full_iff {form : Form} : form = .full ↔ ¬form = .marker := by cases form <;> simp

/-- R70, R71: the segments of either form. -/
theorem Profile.segments_eq (pr : Profile) (form : Form) (address : Byte) (data : List Byte) :
    pr.segments form address data = if form = .marker then pr.markerSegments else pr.frameSegments address data := by
  cases form <;> rfl

/-! ### The events of the drive -/

theorem State.stopDrive_eq (s : State) : s.stopDrive = Claims.driveStopped s := rfl

/-- R73: the last tick has been driven. -/
theorem execDriveDone_driven (driving : s.tx.drive = some d) (driven : d.segments.length ≤ d.position) :
    execDriveDone s = .next ((Claims.driveStopped s).frameEnd d.slot d.form) := by
  have finished : d.finished = true := decide_eq_true driven
  simp only [execDriveDone, driving, if_pos finished, State.stopDrive_eq]

theorem execDriveDone_early (driving : s.tx.drive = some d) (early : d.position < d.segments.length) :
    execDriveDone s = .next s := by
  have unfinished : d.finished = false := decide_eq_false (Nat.not_le.2 early)
  simp only [execDriveDone, driving, unfinished, Bool.false_eq_true, if_false]

theorem execDriveDone_idle (idle : s.tx.drive = none) : execDriveDone s = .next s := by
  simp only [execDriveDone, idle]

/-- R77, R78: the disagreement has passed half a cell. -/
theorem execCollision_due (driving : s.tx.drive = some d) (due : d.cellUs < 2 * s.tx.disagree) :
    execCollision s = .next ((Claims.driveStopped s).collided d.slot) := by
  have collides : d.collides s.tx.disagree = true := decide_eq_true due
  simp only [execCollision, driving, if_pos collides, State.stopDrive_eq]

theorem execCollision_early (driving : s.tx.drive = some d) (early : 2 * s.tx.disagree ≤ d.cellUs) :
    execCollision s = .next s := by
  have agrees : d.collides s.tx.disagree = false := decide_eq_false (Nat.not_lt.2 early)
  simp only [execCollision, driving, agrees, Bool.false_eq_true, if_false]

theorem execCollision_idle (idle : s.tx.drive = none) : execCollision s = .next s := by
  simp only [execCollision, idle]

/-! ### The outcome of a counted job -/

/-! A count leaves what is pending. -/

@[simp] theorem Job.countSent_cancelPending (j : Job) : j.countSent.cancelPending = j.cancelPending := rfl
@[simp] theorem Job.countSent_endPending (j : Job) : j.countSent.endPending = j.endPending := rfl
@[simp] theorem Job.countCollision_cancelPending (j : Job) : j.countCollision.cancelPending = j.cancelPending := rfl
@[simp] theorem Job.countCollision_endPending (j : Job) : j.countCollision.endPending = j.endPending := rfl

/-- R75: a ONESHOT and a BURST at its count are through with their transmissions. -/
theorem Job.finished_iff :
    j.finished = true ↔ j.kind = .oneshot ∨ (j.kind = .burst ∧ j.burstCount = some j.sent) := by
  simp [Job.finished]

theorem Job.endAtFrame_of_cancel (cancel : j.cancelPending = true) :
    j.countSent.endAtFrame = some (if j.countSent.finished then .sent else .cancelled) := if_pos cancel

theorem Job.endAtCollision_of_cancel (cancel : j.cancelPending = true) :
    j.countCollision.endAtCollision = some .cancelled := if_pos cancel

section
variable (kept : j.cancelPending = false)
include kept

theorem Job.endAtFrame_of_pending {e : EndPending} (pending : j.endPending = some e) :
    j.countSent.endAtFrame = some e.outcome := by
  simp [Job.endAtFrame, kept, pending]

theorem Job.endAtFrame_of_live (live : j.endPending = none) :
    j.countSent.endAtFrame = if j.countSent.finished then some .sent else none := by
  simp [Job.endAtFrame, kept, live]

theorem Job.endAtCollision_of_pending {e : EndPending} (pending : j.endPending = some e) :
    j.countCollision.endAtCollision = some e.outcome := by
  simp [Job.endAtCollision, kept, pending]

theorem Job.endAtCollision_of_live (live : j.endPending = none) :
    j.countCollision.endAtCollision = if j.attempts + 1 = j.attemptLimit then some .gaveUp else none := by
  simp [Job.endAtCollision, kept, live, Job.countCollision]

end

/-! ### The job table at a frame end -/

/-- R74: a completed full frame has given its LOCAL event. -/
def State.hearFrame (s : State) (j : Job) (form : Form) : State := if form = .full then s.deliver j.localEvent else s

theorem State.hearFrame_job (s : State) (j : Job) (form : Form) (k : SlotId) :
    (s.hearFrame j form).job k = s.job k := by
  unfold State.hearFrame
  split
  · exact s.deliver_job _ k
  · rfl

/-- R76: an orphan is not counted. -/
theorem State.frameEnd_of_orphan (hj : s.job i = some j) (orphan : j.orphan = true) (form : Form) :
    s.frameEnd i form = (s.hearFrame j form).endSilently i := by
  simp only [State.frameEnd, hj, if_pos orphan]
  rfl

section
variable (hj : s.job i = some j) (own : j.orphan = false)
include hj own

/-- R75: a counted job that ends. -/
theorem State.frameEnd_of_outcome {o : JobOutcome} (ends : j.countSent.endAtFrame = some o) (form : Form) :
    s.frameEnd i form = ((s.hearFrame j form).modifyJob i Job.countSent).endJob i o := by
  simp only [State.frameEnd, hj, own, ends, Bool.false_eq_true, if_false]
  rfl

/-- R75: a counted job that goes on. -/
theorem State.frameEnd_of_gap (goes : j.countSent.endAtFrame = none) (form : Form) :
    s.frameEnd i form = ((s.hearFrame j form).modifyJob i Job.countSent).enterGap i := by
  simp only [State.frameEnd, hj, own, goes, Bool.false_eq_true, if_false]
  rfl

end

/-! ### The job table at a collision -/

/-- R79: an orphan is not counted. -/
theorem State.collided_of_orphan (hj : s.job i = some j) (orphan : j.orphan = true) :
    s.collided i = s.endSilently i := by
  simp only [State.collided, hj, if_pos orphan]

section
variable (hj : s.job i = some j) (own : j.orphan = false)
include hj own

/-- R79: a counted job that ends. -/
theorem State.collided_of_outcome {o : JobOutcome} (ends : j.countCollision.endAtCollision = some o) :
    s.collided i = (s.modifyJob i Job.countCollision).endJob i o := by
  simp only [State.collided, hj, own, ends, Bool.false_eq_true, if_false]

/-- R79: a counted job that backs off. -/
theorem State.collided_of_backoff (goes : j.countCollision.endAtCollision = none) :
    s.collided i = (s.modifyJob i Job.countCollision).enterBackoff i := by
  simp only [State.collided, hj, own, goes, Bool.false_eq_true, if_false]

end

/-- R80: the duration of a job whose profile is defined. -/
theorem State.backoffOf_eq {pr : Profile} (hj : s.job i = some j) (hp : s.profile j.profile = some pr) :
    s.backoffOf i = pr.backoffBaseMs * 2 ^ (min j.attempts 4 - 1) + 2 * s.stn.toNat := by
  have profile : s.jobProfile i = some pr := by simp [State.jobProfile, hj, hp]
  simp only [State.backoffOf, hj, profile, backoffMs]

end Sys2Proof.Machine

section
open Sys2Proof Sys2Proof.Machine

/-- Settles O19: the drive and the record that a frame start leaves, with the conditions of R69 on the form. -/
theorem formChosenAtFrameStart : Obligations.FormChosenAtFrameStart := by
  intro s i j pr hj hp
  have started : (s.frameStart i).job i = some j.atFrameStart := by
    rw [State.frameStart_eq hj hp]
    exact (s.modifyJob_job_self i _).trans (congrArg _ hj)
  have driven : (s.frameStart i).tx.drive = some (j.buildDrive pr i) := by rw [State.frameStart_eq hj hp]
  exact ⟨_, _, driven, started, Job.nextForm_eq_marker, Form.eq_full_iff.trans Job.nextForm_eq_marker.not,
    pr.segments_eq _ _ _, by rw [j.atFrameStart_eq]⟩

/-- Settles O22: the drive stops, and the counted job ends by R75's table or enters its gap. -/
theorem doneEndsJobOrOpensGap : Obligations.DoneEndsJobOrOpensGap := by
  refine ⟨fun s d j driving driven hj => ?_, fun s d => execDriveDone_early, fun s => execDriveDone_idle⟩
  intro stopped heard sent counted last
  have completes : exec .driveDone s = .next (stopped.frameEnd d.slot d.form) := execDriveDone_driven driving driven
  have still : stopped.job d.slot = some j := hj
  have hear : heard.job d.slot = some j := (stopped.hearFrame_job j d.form d.slot).trans still
  have counts : heard.modifyJob d.slot Job.countSent = counted := State.modifyJob_congr hear rfl
  have lasts : j.countSent.finished = true ↔ last := Job.finished_iff
  have ends {o : JobOutcome} (own : j.orphan = false) (outcome : j.countSent.endAtFrame = some o) :
      exec .driveDone s = .next (counted.endJob d.slot o) := by
    rw [completes, ← counts]
    exact congrArg _ (State.frameEnd_of_outcome still own outcome d.form)
  have goes (own : j.orphan = false) (outcome : j.countSent.endAtFrame = none) :
      exec .driveDone s = .next (counted.enterGap d.slot) := by
    rw [completes, ← counts]
    exact congrArg _ (State.frameEnd_of_gap still own outcome d.form)
  refine ⟨fun orphan => completes.trans (congrArg _ (State.frameEnd_of_orphan still orphan d.form)),
    fun own cancel atLast => ends own ?_, fun own cancel more => ends own ?_,
    fun own kept released => ends own (Job.endAtFrame_of_pending kept released),
    fun own kept lapsed => ends own (Job.endAtFrame_of_pending kept lapsed),
    fun own kept live atLast => ends own ?_, fun own kept live more => goes own ?_⟩
  · rw [Job.endAtFrame_of_cancel cancel, if_pos (lasts.2 atLast)]
  · rw [Job.endAtFrame_of_cancel cancel, if_neg (mt lasts.1 more)]
  · exact (Job.endAtFrame_of_live kept live).trans (if_pos (lasts.2 atLast))
  · exact (Job.endAtFrame_of_live kept live).trans (if_neg (mt lasts.1 more))

/-- Settles O23: the drive stops, and the counted job ends by R79's table or backs off for R80's duration. -/
theorem collisionEndsJobOrBacksOff : Obligations.CollisionEndsJobOrBacksOff := by
  refine ⟨fun s d j driving due hj => ?_, fun s d => execCollision_early, fun s => execCollision_idle⟩
  intro stopped counted
  have collides : exec .collision s = .next (stopped.collided d.slot) := execCollision_due driving due
  have still : stopped.job d.slot = some j := hj
  have counts : stopped.modifyJob d.slot Job.countCollision = counted := State.modifyJob_congr still rfl
  have ends {o : JobOutcome} (own : j.orphan = false) (outcome : j.countCollision.endAtCollision = some o) :
      exec .collision s = .next (counted.endJob d.slot o) := by
    rw [collides, ← counts, State.collided_of_outcome still own outcome]
  refine ⟨fun orphan => by rw [collides, State.collided_of_orphan still orphan],
    fun own cancel => ends own (Job.endAtCollision_of_cancel cancel),
    fun own kept released => ends own (Job.endAtCollision_of_pending kept released),
    fun own kept lapsed => ends own (Job.endAtCollision_of_pending kept lapsed),
    fun own kept live limit => ends own ((Job.endAtCollision_of_live kept live).trans (if_pos limit)),
    fun pr own kept live more hp => ?_⟩
  have backs : j.countCollision.endAtCollision = none :=
    (Job.endAtCollision_of_live kept live).trans (if_neg more)
  have job : counted.job d.slot = some j.countCollision := by
    rw [← counts, State.modifyJob_job_self, still]
    rfl
  have duration : counted.backoffOf d.slot =
      pr.backoffBaseMs * 2 ^ (min (j.attempts + 1) 4 - 1) + 2 * s.stn.toNat := State.backoffOf_eq job hp
  rw [collides, State.collided_of_backoff still own backs, counts, State.enterBackoff, duration]

end
end

section
/-! PROOFS. KEEP, RELEASE and CANCEL (R90 to R93) of a job that the handle names, and NOTICE_FETCH (R103, R185): the
notices that leave the queue, and their bytes. -/

-- The proofs run one after another, for the memory limit of the check.
set_option Elab.async false

namespace Sys2Proof.Machine

variable {s : State} {i : SlotId} {j : Job} {p : Port}

/-! ### Requests for a named job -/

/-- R42: a request with a handle of the caller's job is answered as its block replies for that job. -/
theorem State.takeRequest_named {k : RequestKind} {tag slot ticket : Byte} {handler : Request → State → Reply}
    {f : SlotId → Job → Reply} (asks : s.asks p k tag [slot, ticket]) (names : Claims.names s slot ticket i j)
    (owner : j.owner = p) (checks : handler ⟨k, tag, [slot, ticket]⟩ s = s.withHandle p [slot, ticket] f)
    {reply : Reply} (replies : f i j = reply) :
    s.takeRequest k p handler = .next (reply.state.answered p k tag reply.status reply.body) := by
  rw [State.takeRequest_asks _ asks, checks, State.withHandle_names names owner, replies]

/-- A change that leaves the slot's job leaves the part. -/
theorem State.modifyJob_of_fixed {f : Job → Job} (hj : s.job i = some j) (fixed : f j = j) : s.modifyJob i f = s := by
  have here : s.jobs[i].job = some j := hj
  have same : { s.jobs[i] with job := s.jobs[i].job.map f } = s.jobs[i] := by
    rw [here, Option.map_some, fixed, ← here]
  rw [State.modifyJob, same, Fin.getElem_fin, Vector.set_getElem_self]

/-- R30: unstarted, in QUEUED or STARTING. -/
theorem Job.unstarted_iff :
    j.unstarted = true ↔ (j.state = .queued ∨ j.state = .starting) ∧ j.started = false := by
  simp only [Job.unstarted, Bool.and_eq_true, Bool.or_eq_true, beq_iff_eq, Bool.not_eq_true']

theorem Job.not_sending_of_waiting (waiting : j.state = .queued ∨ j.state = .starting) : j.state ≠ .sending := by
  obtain state | state := waiting <;> simp [state]

/-- R40, R90: KEEP gives a HELD job's lease timer its whole lease again. -/
theorem State.modifyJob_keep (hj : s.job i = some j) (held : j.kind = .held) :
    s.modifyJob i Job.keep = s.modifyJob i fun x => { x with leaseTimer := j.lease.map (· * 100) } := by
  refine State.modifyJob_congr hj ?_
  rw [Job.keep, leaseTimerOf, if_pos held]

/-- R91: a RELEASE in SENDING where nothing is pending. -/
theorem State.modifyJob_deferRelease_live (hj : s.job i = some j) (live : j.endPending = none)
    (kept : j.cancelPending = false) :
    s.modifyJob i Job.deferRelease = s.modifyJob i fun x => { x with endPending := some .released } :=
  State.modifyJob_congr hj (if_pos ⟨kept, live⟩)

/-- R91: an end or a cancel that is pending stays. -/
theorem State.modifyJob_deferRelease_pending (hj : s.job i = some j)
    (pending : j.endPending ≠ none ∨ j.cancelPending = true) : s.modifyJob i Job.deferRelease = s := by
  refine State.modifyJob_of_fixed hj (if_neg fun ⟨kept, live⟩ => ?_)
  obtain ends | cancels := pending
  · exact ends live
  · cases cancels.symm.trans kept

/-! ### NOTICE_FETCH -/

theorem readCountOfBody_outOfRange {n : Byte} (out : n.toNat = 0 ∨ 4 < n.toNat) : readCountOfBody [n] = none := by
  have out : ¬(1 ≤ n.toNat ∧ n.toNat ≤ 4) := by omega
  exact if_neg out

theorem readCountOfBody_inRange {n : Byte} (low : 1 ≤ n.toNat) (high : n.toNat ≤ 4) :
    readCountOfBody [n] = some n.toNat := if_pos ⟨low, high⟩

/-- R181: a word is sent with its low byte first. -/
theorem le16_toNat (w : BitVec 16) : le16 w.toNat = [w.extractLsb' 0 8, w.extractLsb' 8 8] := by
  have low : byte w.toNat = w.extractLsb' 0 8 := by
    simp [byte, BitVec.extractLsb']
  have high : byte (w.toNat / 256) = w.extractLsb' 8 8 := by
    simp [byte, BitVec.extractLsb', Nat.shiftRight_eq_div_pow]
  rw [le16, low, high]

/-- R185: the 10 bytes of a notice. -/
theorem Notice.record_eq (x : Notice) : x.record = [byte x.slot.val, x.ticket, x.submitTag, x.key, x.outcome.code,
    byte x.sent, byte x.collisionsTotal, byte x.merges, x.endTime.extractLsb' 0 8, x.endTime.extractLsb' 8 8] := by
  rw [Notice.record, le16_toNat]
  rfl

/-- R103, R184: how many notices are returned, how many remain, and the notices. -/
theorem fetchBody_eq (held : List Notice) (n : Nat) : fetchBody held n =
    [byte (min n held.length), byte (held.length - n)] ++ (held.take n).flatMap Notice.record := by
  rw [fetchBody, List.length_take, List.length_drop]

/-- R177: ATTNn after a change of its port's record takes the level that the new record asks for. -/
theorem State.modifyPort_attend (s : State) (p : Port) (f : HostPort → HostPort) :
    (s.modifyPort p f).attend p = s.modifyPort p fun h => { f h with
      attn := (f h).isOpen && (!(f h).notices.isEmpty || decide ((f h).threshold ≤ s.ringCount p)) } := by
  have due : (s.modifyPort p f).attentionDue p = ((f (s.port p)).isOpen &&
      (!(f (s.port p)).notices.isEmpty || decide ((f (s.port p)).threshold ≤ s.ringCount p))) := by
    rw [State.attentionDue, State.modifyPort_port_self]
    rfl
  rw [State.attend, State.modifyPort_modifyPort, due]
  rfl

/-- Notices remain after a fetch where more were held than it takes. -/
theorem not_isEmpty_drop {α : Type} (l : List α) (n : Nat) : (!(l.drop n).isEmpty) = decide (n < l.length) := by
  rw [Bool.eq_iff_iff, Bool.not_eq_true', List.isEmpty_eq_false_iff, decide_eq_true_iff, Ne, List.drop_eq_nil_iff,
    Nat.not_le]

/-- R103, R177: the port after a fetch. -/
theorem State.dropNotices_eq (s : State) (p : Port) (n : Nat) :
    s.dropNotices p n = { s with ports := s.ports.set p { s.port p with
      notices := (s.port p).notices.drop n
      attn := (s.port p).isOpen &&
        (decide (n < (s.port p).notices.length) || decide ((s.port p).threshold ≤ s.ringCount p)) } } := by
  rw [State.dropNotices, State.modifyPort_attend, ← not_isEmpty_drop]
  rfl

end Sys2Proof.Machine

section
open Sys2Proof Sys2Proof.Machine

/-- Settles O39: the reply to each request by the kind and the state of the job. -/
theorem releaseAndCancelEndOrDefer : Obligations.ReleaseAndCancelEndOrDefer := by
  refine ⟨fun s p tag slot ticket i j asks names owner => ?_, fun s p tag slot ticket i j asks names owner => ?_⟩
  · intro waiting
    have answers {reply : Reply} := State.takeRequest_named (handler := releaseReply p) asks names owner rfl
      (reply := reply)
    obtain ⟨_, hj, _⟩ := names
    have unstarted : j.unstarted = true ↔ waiting := Job.unstarted_iff
    refine ⟨fun other => answers (if_pos other), fun held sending live kept => ?_, fun held sending pending => ?_,
      fun held waits => ?_, fun held quiet begun => ?_⟩
    · refine (answers ((if_neg (not_not.2 held)).trans (if_pos sending))).trans ?_
      rw [State.modifyJob_deferRelease_live hj live kept]
    · refine (answers ((if_neg (not_not.2 held)).trans (if_pos sending))).trans ?_
      rw [State.modifyJob_deferRelease_pending hj pending]
    · exact answers ((if_neg (not_not.2 held)).trans
        ((if_neg (Job.not_sending_of_waiting waits.1)).trans (if_pos (unstarted.2 waits))))
    · exact answers ((if_neg (not_not.2 held)).trans ((if_neg quiet).trans (if_neg (mt unstarted.1 begun))))
  · have answers {reply : Reply} := State.takeRequest_named (handler := cancelReply p) asks names owner rfl
      (reply := reply)
    exact ⟨fun sending => answers (if_pos sending), fun quiet => answers (if_neg quiet)⟩

/-- Settles O31: the count is read, and the queue, the attention line and the bytes follow from it. -/
theorem noticeFetchRemovesOldest : Obligations.NoticeFetchRemovesOldest := by
  intro s p tag n asks
  refine ⟨fun out => (State.takeRequest_asks _ asks).trans ?_, fun low high => ?_⟩
  · simp only [noticeFetchReply, readCountOfBody_outOfRange out]
    rfl
  · intro held level
    refine (State.takeRequest_asks _ asks).trans ?_
    simp only [noticeFetchReply, readCountOfBody_inRange low high, State.dropNotices_eq, fetchBody_eq,
      funext Notice.record_eq]
    rfl

/-- Settles O38: the three checks in their order. -/
theorem keepRestartsLease : Obligations.KeepRestartsLease := by
  intro s p tag slot ticket i j asks names owner
  have answers {reply : Reply} := State.takeRequest_named (handler := keepReply p) asks names owner rfl
    (reply := reply)
  obtain ⟨_, hj, _⟩ := names
  refine ⟨fun other => answers (if_pos other),
    fun held lapsed => answers ((if_neg (not_not.2 held)).trans (if_pos lapsed)), fun held live => ?_⟩
  refine (answers ((if_neg (not_not.2 held)).trans (if_neg live))).trans ?_
  rw [State.modifyJob_keep hj held]

end
end

section
/-! PROOFS. The turns of DETECT outside a body: the listening set and its largest nominals, what a turn does by the
state of the decoder, and the judgement of a leader. O9 and O10 are settled from them. -/

-- The proofs run one after another, for the memory limit of the check.
set_option Elab.async false

namespace Sys2Proof.Machine

section
variable {s : State} {q : ProfileId} {qs : List ProfileId} {d : Decoding} {pr : Profile} {n : Nat}

/-! ### The listening set and its largest nominals -/

theorem State.mem_listeningSet : q ∈ s.listeningSet ↔ s.listening q = true := by
  simp [State.listeningSet, allProfiles]

theorem State.listeningSet_eq_nil : s.listeningSet = [] ↔ ∀ q, s.listening q = false := by
  simp [List.eq_nil_iff_forall_not_mem, State.mem_listeningSet]

/-- R18: a profile that is listened for is defined. -/
theorem State.profile_of_listening (h : s.listening q = true) : ∃ pr, s.profile q = some pr :=
  Option.isSome_iff_exists.1 (Bool.and_eq_true_iff.1 h).1

/-- The largest of a nominal among profiles: the bound of R108, R111 and R112. -/
def State.largest (s : State) (qs : List ProfileId) (nominal : Profile → Nat) : Nat :=
  (qs.map fun q => ((s.profile q).map nominal).getD 0).foldl max 0

theorem State.longestLeader_eq (s : State) : s.longestLeader = s.largest s.listeningSet Profile.leaderNominal := rfl

theorem State.longestSpace_eq (s : State) (qs : List ProfileId) :
    s.longestSpace qs = s.largest qs Profile.spaceNominal := rfl

theorem State.noiseGap_silent (h : ∀ q, s.listening q = false) : s.noiseGap = 4000 := by
  rw [State.noiseGap, State.listeningSet_eq_nil.2 h]
  rfl

theorem State.noiseGap_listening (h : s.listening q = true) :
    s.noiseGap = s.largest s.listeningSet Profile.endGapUs := by
  have mem := State.mem_listeningSet.2 h
  unfold State.noiseGap
  split
  · simp_all
  · rfl

theorem foldl_max_le_iff {l : List Nat} {a : Nat} : l.foldl max a ≤ n ↔ a ≤ n ∧ ∀ x ∈ l, x ≤ n := by
  induction l generalizing a with
  | nil => simp
  | cons x l ih => simp [ih, and_assoc]

variable {nominal : Profile → Nat}

theorem State.largest_le_iff :
    s.largest qs nominal ≤ n ↔ ∀ q ∈ qs, ∀ pr, s.profile q = some pr → nominal pr ≤ n := by
  have nominal_le (q : ProfileId) : ((s.profile q).map nominal).getD 0 ≤ n ↔
      ∀ pr, s.profile q = some pr → nominal pr ≤ n := by
    cases s.profile q <;> simp
  simp [State.largest, foldl_max_le_iff, nominal_le]

/-- The largest nominal is that of some profile. -/
theorem State.largest_attained (some_profile : qs ≠ []) (defined : ∀ q ∈ qs, ∃ pr, s.profile q = some pr) :
    ∃ q ∈ qs, ∃ pr, s.profile q = some pr ∧ nominal pr = s.largest qs nominal := by
  have below := State.largest_le_iff.1 (Nat.le_refl (s.largest qs nominal))
  cases top : s.largest qs nominal with
  | zero =>
    obtain ⟨q, hq⟩ := List.exists_mem_of_ne_nil qs some_profile
    obtain ⟨pr, hpr⟩ := defined q hq
    have := below q hq pr hpr
    exact ⟨q, hq, pr, hpr, by omega⟩
  | succ m =>
    have above : ¬s.largest qs nominal ≤ m := by omega
    simp only [State.largest_le_iff, not_forall, Nat.not_le] at above
    obtain ⟨q, hq, pr, hpr, large⟩ := above
    have := below q hq pr hpr
    exact ⟨q, hq, pr, hpr, by omega⟩

/-- R108: a length passes 5/4 of the largest nominal of the listening set. -/
theorem State.passes_longestLeader (long : 0 < n) : passesNominal s.longestLeader n = true ↔
    ∀ q pr, s.listening q = true → s.profile q = some pr → 5 * (pr.leaderMark * pr.cellUs) < 4 * n := by
  have scaled : passesNominal s.longestLeader n = true ↔ s.longestLeader ≤ (8 * n - 1) / 5 := by
    simp only [passesNominal, decide_eq_true_iff]
    omega
  have each (pr : Profile) :
      pr.leaderNominal ≤ (8 * n - 1) / 5 ↔ 5 * (pr.leaderMark * pr.cellUs) < 4 * n := by
    rw [Profile.leaderNominal, Nat.mul_assoc]
    omega
  rw [scaled, State.longestLeader_eq, State.largest_le_iff]
  simp only [State.mem_listeningSet, each]
  exact forall_congr' fun q => forall_comm

/-- R108, R113: the noise gap is over when the end gap of every profile of the listening set is. -/
theorem State.noiseGap_le_iff (h : s.listening q = true) : s.noiseGap ≤ n ↔
    ∀ q pr, s.listening q = true → s.profile q = some pr → pr.endGap * pr.cellUs ≤ n := by
  rw [State.noiseGap_listening h, State.largest_le_iff]
  simp only [State.mem_listeningSet]
  exact forall_congr' fun q => forall_comm

/-! ### Tolerance (R12) -/

theorem Profile.acceptsCells_quarters {k : Nat} :
    pr.acceptsCells k n = true ↔ 3 * (k * pr.cellUs) ≤ 4 * n ∧ 4 * n ≤ 5 * (k * pr.cellUs) := by
  rw [Profile.acceptsCells_iff]
  omega

theorem Profile.acceptsCell_iff : pr.acceptsCells 1 n = true ↔ 3 * pr.cellUs ≤ 4 * n ∧ 4 * n ≤ 5 * pr.cellUs := by
  rw [Profile.acceptsCells_quarters, Nat.one_mul]

theorem Profile.acceptsHalf_iff : pr.acceptsHalves 1 n = true ↔ 3 * pr.cellUs ≤ 8 * n ∧ 8 * n ≤ 5 * pr.cellUs := by
  rw [Profile.acceptsHalves_iff, Nat.one_mul]

/-! ### The turns of DETECT, by the state of the decoder -/

theorem execDetectMark_turns (h : s.rx.level = .space) :
    execDetectMark s = .next (s.turnToMark.judgeAtMark s.rx.quiet) := if_neg (by simp [h])

theorem execDetectMark_same (h : s.rx.level = .mark) : execDetectMark s = .next s := if_pos h

theorem execDetectSpace_turns (h : s.rx.level = .mark) :
    execDetectSpace s = .next (s.turnToSpace.judgeAtSpace s.rx.markTicks) := if_neg (by simp [h])

theorem execDetectSpace_same (h : s.rx.level = .space) : execDetectSpace s = .next s := if_pos h

theorem State.judgeAtMark_silent (idle : s.rx.decoder = .idle) (h : ∀ q, s.listening q = false) :
    s.judgeAtMark n = s.noise := by
  simp [State.judgeAtMark, idle, State.listeningSet_eq_nil.2 h]

theorem State.judgeAtMark_listening (idle : s.rx.decoder = .idle) (h : s.listening q = true) :
    s.judgeAtMark n = s.setDecoder .leaderMark := by
  have some_profile := List.ne_nil_of_mem (State.mem_listeningSet.2 h)
  simp [State.judgeAtMark, idle, some_profile]

theorem State.judgeAtMark_leaderSpace {longest : Nat} (h : s.rx.decoder = .leaderSpace qs longest) :
    s.judgeAtMark n = s.judgeLeaderSpace qs n := by rw [State.judgeAtMark, h]

theorem State.judgeAtMark_bits (h : s.rx.decoder = .bits d) (hp : s.profile d.winner = some pr) :
    s.judgeAtMark n = s.applyJudgement d.winner pr (d.judgeSpace pr n) := by simp only [State.judgeAtMark, h, hp]

theorem State.judgeAtMark_tail {own : Option (ProfileId × Nat)} (h : s.rx.decoder = .tail own) :
    s.judgeAtMark n = s := by rw [State.judgeAtMark, h]

theorem State.judgeAtMark_echo (h : s.rx.decoder = .echo) : s.judgeAtMark n = s := by rw [State.judgeAtMark, h]

theorem State.judgeAtSpace_leaderMark (h : s.rx.decoder = .leaderMark) : s.judgeAtSpace n = s.judgeLeaderMark n := by
  rw [State.judgeAtSpace, h]

theorem State.judgeAtSpace_bits (h : s.rx.decoder = .bits d) (hp : s.profile d.winner = some pr) :
    s.judgeAtSpace n = s.applyJudgement d.winner pr (d.judgeMark pr n) := by simp only [State.judgeAtSpace, h, hp]

theorem State.judgeAtSpace_tail {own : Option (ProfileId × Nat)} (h : s.rx.decoder = .tail own) :
    s.judgeAtSpace n = s := by rw [State.judgeAtSpace, h]

theorem State.judgeAtSpace_echo (h : s.rx.decoder = .echo) : s.judgeAtSpace n = s := by rw [State.judgeAtSpace, h]

/-! ### The leader -/

/-- R111: the candidates of a leader mark. -/
theorem State.mem_leaderCandidates : q ∈ s.leaderCandidates n ↔ Claims.acceptsLeader s n q := by
  simp [State.leaderCandidates, State.mem_listeningSet, Claims.acceptsLeader, Option.any_eq_true,
    Profile.acceptsCells_quarters]

theorem State.judgeLeaderMark_none (h : ∀ q, ¬Claims.acceptsLeader s n q) : s.judgeLeaderMark n = s.noise := by
  have none_left : s.leaderCandidates n = [] :=
    List.eq_nil_iff_forall_not_mem.2 fun q => mt State.mem_leaderCandidates.1 (h q)
  rw [State.judgeLeaderMark, none_left]

theorem State.judgeLeaderMark_some (h : Claims.acceptsLeader s n q) : s.judgeLeaderMark n =
    s.setDecoder (.leaderSpace (s.leaderCandidates n) (s.largest (s.leaderCandidates n) Profile.spaceNominal)) := by
  have mem := State.mem_leaderCandidates.2 h
  rw [← State.longestSpace_eq]
  unfold State.judgeLeaderMark
  split
  · simp_all
  · rfl

theorem Profile.acceptsFrameSpace_iff : pr.acceptsFrameSpace n = true ↔
    (3 * (pr.leaderSpace * pr.cellUs) ≤ 4 * n ∧ 4 * n ≤ 5 * (pr.leaderSpace * pr.cellUs)) ∨
      (pr.coding = .split ∧ 3 * ((2 * pr.leaderSpace + 1) * pr.cellUs) ≤ 8 * n ∧
        8 * n ≤ 5 * ((2 * pr.leaderSpace + 1) * pr.cellUs)) := by
  simp only [Profile.acceptsFrameSpace, Bool.or_eq_true, Bool.and_eq_true, beq_iff_eq, Profile.acceptsCells_quarters,
    Profile.acceptsHalves_iff]

theorem Profile.shapeOf_frame : pr.shapeOf n = some .frame ↔ pr.acceptsFrameSpace n = true := by
  unfold Profile.shapeOf
  split
  · simp_all
  · split <;> simp_all

theorem Profile.shapeOf_marker :
    pr.shapeOf n = some .marker ↔ ¬pr.acceptsFrameSpace n = true ∧ pr.acceptsCells pr.repeatSpace n = true := by
  unfold Profile.shapeOf Profile.acceptsMarkerSpace
  split
  · simp_all
  · split <;> simp_all

/-- R112: a candidate accepts a leader space for the shape that its profile reads in it. -/
theorem State.acceptsSpace_iff {shape : Shape} : Claims.acceptsSpace s qs n q shape ↔
    q ∈ qs ∧ s.listening q = true ∧ ∃ pr, s.profile q = some pr ∧ pr.shapeOf n = some shape := by
  unfold Claims.acceptsSpace
  cases shape with
  | frame => simp only [Profile.shapeOf_frame, Profile.acceptsFrameSpace_iff]
  | marker => simp only [Profile.shapeOf_marker, Profile.acceptsFrameSpace_iff, Profile.acceptsCells_quarters]

/-- R112: the test of the search for the winner. -/
theorem State.spaceTest_iff :
    (qs.contains q && s.listening q && (s.profile q).any fun pr => (pr.shapeOf n).isSome) = true ↔
      ∃ shape, Claims.acceptsSpace s qs n q shape := by
  simp only [State.acceptsSpace_iff, Bool.and_eq_true, List.contains_iff_mem, Option.any_eq_true,
    Option.isSome_iff_exists, and_assoc]
  constructor
  · rintro ⟨mem, listens, pr, hpr, shape, h⟩
    exact ⟨shape, mem, listens, pr, hpr, h⟩
  · rintro ⟨shape, mem, listens, pr, hpr, h⟩
    exact ⟨mem, listens, pr, hpr, shape, h⟩

theorem State.judgeLeaderSpace_none (h : ∀ q shape, ¬Claims.acceptsSpace s qs n q shape) :
    s.judgeLeaderSpace qs n = s.noise := by
  have none_found : (allProfiles.find? fun q => qs.contains q && s.listening q &&
      (s.profile q).any fun pr => (pr.shapeOf n).isSome) = none :=
    List.find?_eq_none.2 fun q _ test => by
      obtain ⟨shape, accepts⟩ := State.spaceTest_iff.1 test
      exact h q shape accepts
  rw [State.judgeLeaderSpace, none_found]

theorem State.judgeLeaderSpace_lowest {shape : Shape} (accepts : Claims.acceptsSpace s qs n q shape)
    (hp : s.profile q = some pr) (lowest : ∀ k < q, ∀ shape', ¬Claims.acceptsSpace s qs n k shape') :
    s.judgeLeaderSpace qs n = s.setDecoder (.bits (pr.startDecoding q shape n)) := by
  have found : (allProfiles.find? fun q => qs.contains q && s.listening q &&
      (s.profile q).any fun pr => (pr.shapeOf n).isSome) = some q := by
    refine find?_finRange.2 ⟨State.spaceTest_iff.2 ⟨shape, accepts⟩, fun k hk => Bool.eq_false_iff.2 fun test => ?_⟩
    obtain ⟨shape', earlier⟩ := State.spaceTest_iff.1 test
    exact lowest k hk shape' earlier
  obtain ⟨_, _, pr', hp', reads⟩ := State.acceptsSpace_iff.1 accepts
  cases hp.symm.trans hp'
  simp only [State.judgeLeaderSpace, found, hp, reads]

/-- R117: when the half stream begins with a space half. -/
theorem Profile.startsWithHalf_iff : pr.startsWithHalf n = true ↔ pr.coding = .split ∧
    (3 * ((2 * pr.leaderSpace + 1) * pr.cellUs) ≤ 8 * n ∧ 8 * n ≤ 5 * ((2 * pr.leaderSpace + 1) * pr.cellUs)) ∧
    (¬(3 * (pr.leaderSpace * pr.cellUs) ≤ 4 * n ∧ 4 * n ≤ 5 * (pr.leaderSpace * pr.cellUs)) ∨
      (4 * pr.leaderSpace + 1) * pr.cellUs < 4 * n) := by
  simp only [Profile.startsWithHalf, Bool.and_eq_true, Bool.or_eq_true, beq_iff_eq, decide_eq_true_iff,
    Bool.not_eq_true', Bool.eq_false_iff, ne_eq, Profile.acceptsHalves_iff, Profile.acceptsCells_quarters, and_assoc]

theorem Profile.expectedAtStart_fixed (h : pr.lengthMode = .fixed) :
    pr.expectedAtStart = some (8 + 8 * pr.fixedLen + if pr.check = .noCheck then 0 else 8) := by
  simp [Profile.expectedAtStart, Profile.bodyLength, Profile.counts, Profile.checks, h]

theorem Profile.expectedAtStart_counted (h : pr.lengthMode = .counted) : pr.expectedAtStart = none := by
  simp [Profile.expectedAtStart, Profile.counts, h]

end
end Sys2Proof.Machine

section
open Sys2Proof Sys2Proof.Machine

/-- Settles O9: a turn is judged by the state of the decoder. -/
theorem turnsOutsideBody : Obligations.TurnsOutsideBody := by
  refine ⟨fun s level => ?_, fun s level => ?_, fun s => ⟨execDetectMark_same, execDetectSpace_same⟩⟩
  · intro u
    have turn {t : State} (h : s.turnToMark.judgeAtMark s.rx.quiet = t) : exec .detectMark s = .next t :=
      (execDetectMark_turns level).trans (congrArg _ h)
    refine ⟨fun idle silent => turn (State.judgeAtMark_silent idle silent), fun idle ⟨q, listens⟩ => ?_,
      fun echo => turn (State.judgeAtMark_echo echo), fun own tail => turn (State.judgeAtMark_tail tail)⟩
    exact turn (State.judgeAtMark_listening (q := q) idle listens)
  · intro u
    have turn {t : State} (h : s.turnToSpace.judgeAtSpace s.rx.markTicks = t) : exec .detectSpace s = .next t :=
      (execDetectSpace_turns level).trans (congrArg _ h)
    have judged (leader : s.rx.decoder = .leaderMark) := State.judgeAtSpace_leaderMark (s := s.turnToSpace)
      (n := s.rx.markTicks) leader
    refine ⟨fun leader none => ?_, fun leader ⟨q, accepts⟩ => ?_, fun echo => turn (State.judgeAtSpace_echo echo),
      fun own tail => turn (State.judgeAtSpace_tail tail)⟩
    · exact turn ((judged leader).trans (State.judgeLeaderMark_none none))
    · have candidate {k : ProfileId} : k ∈ s.leaderCandidates s.rx.markTicks ↔ _ := State.mem_leaderCandidates
      refine ⟨_, _, turn ((judged leader).trans (State.judgeLeaderMark_some accepts)),
        fun k => candidate, State.largest_le_iff.1 (Nat.le_refl _),
        State.largest_attained (List.ne_nil_of_mem (candidate.2 accepts)) fun k hk => ?_⟩
      exact State.profile_of_listening (candidate.1 hk).1

/-- Settles O10: the search finds the lowest candidate that accepts, and its profile gives the decode that begins. -/
theorem lowestAcceptingCandidateWins : Obligations.LowestAcceptingCandidateWins := by
  intro s qs longest level leader u
  have turn {t : State} (h : s.turnToMark.judgeLeaderSpace qs s.rx.quiet = t) : exec .detectMark s = .next t :=
    (execDetectMark_turns level).trans (congrArg _ ((State.judgeAtMark_leaderSpace (s := s.turnToMark) leader).trans h))
  refine ⟨fun none => turn (State.judgeLeaderSpace_none none), fun q shape accepts lowest => ?_⟩
  obtain ⟨_, _, pr, hp, _⟩ := State.acceptsSpace_iff.1 accepts
  refine ⟨pr.startDecoding q shape s.rx.quiet, turn (State.judgeLeaderSpace_lowest accepts hp lowest), rfl, rfl, rfl,
    fun pr' hp' => ?_⟩
  cases hp.symm.trans hp'
  intro cell quiet whole joined nearer
  refine ⟨rfl, fun _ => ⟨Profile.expectedAtStart_fixed, Profile.expectedAtStart_counted, ?_, ?_⟩⟩
  · exact fun split fits far => if_pos (Profile.startsWithHalf_iff.2 ⟨split, fits, far⟩)
  · intro other
    refine if_neg fun starts => ?_
    obtain ⟨split, fits, far⟩ := Profile.startsWithHalf_iff.1 starts
    obtain pulse | misfit | ⟨whole, near⟩ := other
    · exact pulse split
    · exact misfit fits
    · exact far.elim (· whole) near

end
end

section
/-! PROOFS. The early bounds, the judgements of a body, and the ends of a decode: O8 and O11 to O15. -/

-- The proofs run one after another, for the memory limit of the check.
set_option Elab.async false

namespace Sys2Proof.Machine

section
variable {s t : State} {d : Decoding} {pr : Profile} {n : Nat} {l : Level}

/-! ### The early bounds (R108, R112, R113) -/

theorem execMarkTooLong_atMark (h : s.rx.level = .mark) : execMarkTooLong s = .next (s.markTooLong.getD s) := if_pos h

theorem State.markTooLong_leader (h : s.rx.decoder = .leaderMark) :
    s.markTooLong = if passesNominal s.longestLeader s.rx.markTicks then some s.noise else none := by
  rw [State.markTooLong, h]

theorem State.markTooLong_bits (h : s.rx.decoder = .bits d) (hp : s.profile d.winner = some pr) :
    s.markTooLong = if passesNominal (d.markNominal pr) s.rx.markTicks then
      some (s.failDecode d.winner pr .violation) else none := by
  simp only [State.markTooLong, h, hp]

/-- R115 to R117, R120: a mark of a body lasts at most two cells under PWIDTH, and one elsewhere. -/
theorem Decoding.markNominal_eq (d : Decoding) (pr : Profile) :
    d.markNominal pr = 2 * ((if d.shape = .frame ∧ pr.coding = .pwidth then 2 else 1) * pr.cellUs) := by
  unfold Decoding.markNominal
  split
  · rw [if_pos ⟨‹_›, ‹_›⟩]
    omega
  all_goals
    rw [if_neg (by simp_all)]
    omega

theorem passesNominal_double {k : Nat} : passesNominal (2 * k) n = true ↔ 5 * k < 4 * n := by
  rw [passesNominal, decide_eq_true_iff]
  omega

theorem execLeaderSpaceTooLong_leaderSpace {qs : List ProfileId} {longest : Nat} (level : s.rx.level = .space)
    (h : s.rx.decoder = .leaderSpace qs longest) :
    execLeaderSpaceTooLong s = if 5 * longest < 8 * s.rx.quiet then .next s.noise else .next s := by
  simp only [execLeaderSpaceTooLong, h, level, true_and, passesNominal, decide_eq_true_iff]

theorem execClosingGapReached_tail {own : Option (ProfileId × Nat)} (h : s.rx.decoder = .tail own) :
    execClosingGapReached s = .next (if s.closingGap own ≤ s.rx.quiet then s.setDecoder .idle else s) := by
  simp only [execClosingGapReached, h]
  split <;> rfl

/-! ### Halves of SPLIT (R117) -/

theorem Decoding.pushHalf_overflows (h : ∃ n, d.expected = some n ∧ 2 * n ≤ d.halves.length) (l : Level) :
    d.pushHalf pr l = .failed .violation := by
  obtain ⟨n, expected, full⟩ := h
  refine if_pos ?_
  simp [expected]
  omega

/-- R117: the half stream has room for one more half. -/
theorem Decoding.room_of_lt (h : ∀ n, d.expected = some n → d.halves.length < 2 * n) (l : Level) :
    (d.expected.any fun n => decide (2 * n < (d.halves ++ [l]).length)) = false := by
  cases expected : d.expected with
  | none => rfl
  | some n =>
    have := h n expected
    simp
    omega

theorem Decoding.pushHalf_equal
    (room : (d.expected.any fun n => decide (2 * n < (d.halves ++ [l]).length)) = false)
    (even : ¬(d.halves ++ [l]).length % 2 = 1) (last : d.halves.getLast? = some l) :
    d.pushHalf pr l = .failed .violation := by
  simp only [Decoding.pushHalf, room, even, last, if_true, Bool.false_eq_true, if_false]

theorem Decoding.pushPiece_ofHalf (half : pr.acceptsHalves 1 n = true) (d : Decoding) (l : Level) :
    d.pushPiece pr l n = d.pushHalf pr l := if_pos half

theorem Decoding.pushPiece_ofCell (long : ¬pr.acceptsHalves 1 n = true) (cell : pr.acceptsCells 1 n = true)
    (d : Decoding) (l : Level) : d.pushPiece pr l n =
      match d.pushHalf pr l with
      | .going d' => d'.pushHalf pr l
      | .failed k => .failed k := (if_neg long).trans ((if_pos cell).trans rfl)

theorem Decoding.pushPiece_misfit (half : ¬pr.acceptsHalves 1 n = true) (cell : ¬pr.acceptsCells 1 n = true)
    (d : Decoding) (l : Level) : d.pushPiece pr l n = .failed .violation := (if_neg half).trans (if_neg cell)

/-! ### Bits, and when a frame can close (R114 to R118) -/

theorem Decoding.complete_iff : d.complete = true ↔ d.expected = some d.bits.length := beq_iff_eq

theorem Decoding.closable_pulse (h : pr.coding ≠ .split) : d.closable pr = d.complete := by
  unfold Decoding.closable
  split
  · rfl
  · rfl
  · exact absurd ‹_› h

theorem Decoding.not_closable_pulse (h : pr.coding ≠ .split) (unfinished : ¬d.expected = some d.bits.length) :
    d.closable pr = false :=
  (Decoding.closable_pulse h).trans (Bool.eq_false_iff.2 (mt Decoding.complete_iff.1 unfinished))

theorem Decoding.closable_split (h : pr.coding = .split) : d.closable pr = true ↔ ∃ n, d.expected = some n ∧
    (d.halves.length = 2 * n ∨ (d.halves.length + 1 = 2 * n ∧ d.halves.getLast? = some .mark)) := by
  simp only [Decoding.closable, h, Option.any_eq_true, Bool.or_eq_true, Bool.and_eq_true, beq_iff_eq]

theorem Decoding.pushBit_goes (h : pr.lengthMode = .fixed ∨ d.bits.length ≠ 11) (bit : Bool) :
    d.pushBit pr bit = .going { d with bits := d.bits ++ [bit] } := by
  refine if_neg fun twelfth => ?_
  simp only [Profile.counts, Bool.and_eq_true, beq_iff_eq, List.length_append, List.length_singleton] at twelfth
  obtain ⟨counted, length⟩ := twelfth
  obtain fixed | other := h
  · cases fixed.symm.trans counted
  · omega

/-- R114: the twelfth bit of a COUNTED frame completes its count. -/
theorem Decoding.pushBit_counts (counted : pr.lengthMode = .counted) (h : d.bits.length = 11) (bit : Bool) :
    d.pushBit pr bit = if 7 ≤ bitsNumber (d.bits.drop 8 ++ [bit]) then .failed .length else .going { d with
      bits := d.bits ++ [bit]
      expected := some (12 + 8 * bitsNumber (d.bits.drop 8 ++ [bit]) + if pr.check = .noCheck then 0 else 8) } := by
  have count : (d.bits ++ [bit]).drop 8 = d.bits.drop 8 ++ [bit] := List.drop_append_of_le_length (by omega)
  simp [Decoding.pushBit, Profile.bodyLength, Profile.counts, Profile.checks, counted, h, count]

/-! ### Marks and spaces of a body, by shape and coding -/

theorem Decoding.judgeMark_marker (h : d.shape = .marker) :
    d.judgeMark pr n = if pr.acceptsCells 1 n then .going d else .failed .violation := by
  rw [Decoding.judgeMark, h]

theorem Decoding.judgeMark_pdist (h : d.shape = .frame) (coding : pr.coding = .pdist) :
    d.judgeMark pr n = if pr.acceptsCells 1 n then .going d else .failed .violation := by
  rw [Decoding.judgeMark, h, coding]

theorem Decoding.judgeMark_pwidth (h : d.shape = .frame) (coding : pr.coding = .pwidth) :
    d.judgeMark pr n = if pr.acceptsCells 1 n then d.pushBit pr false
      else if pr.acceptsCells 2 n then d.pushBit pr true else .failed .violation := by
  rw [Decoding.judgeMark, h, coding]

theorem Decoding.judgeMark_split (h : d.shape = .frame) (coding : pr.coding = .split) :
    d.judgeMark pr n = d.pushPiece pr .mark n := by
  rw [Decoding.judgeMark, h, coding]

theorem Decoding.judgeSpace_marker (h : d.shape = .marker) : d.judgeSpace pr n = .failed .violation := by
  rw [Decoding.judgeSpace, h]

theorem Decoding.judgeSpace_closable (h : d.shape = .frame) (closable : d.closable pr = true) :
    d.judgeSpace pr n = .failed .violation := by
  simp only [Decoding.judgeSpace, h, closable, if_true]

theorem Decoding.judgeSpace_pdist (h : d.shape = .frame) (coding : pr.coding = .pdist)
    (unfinished : ¬d.expected = some d.bits.length) :
    d.judgeSpace pr n = if pr.acceptsCells 1 n then d.pushBit pr false
      else if pr.acceptsCells 3 n then d.pushBit pr true else .failed .violation := by
  have goes_on := Decoding.not_closable_pulse (pr := pr) (by simp [coding]) unfinished
  simp only [Decoding.judgeSpace, h, goes_on, Bool.false_eq_true, if_false, coding]

theorem Decoding.judgeSpace_pwidth (h : d.shape = .frame) (coding : pr.coding = .pwidth)
    (unfinished : ¬d.expected = some d.bits.length) :
    d.judgeSpace pr n = if pr.acceptsCells 1 n then .going d else .failed .violation := by
  have goes_on := Decoding.not_closable_pulse (pr := pr) (by simp [coding]) unfinished
  simp only [Decoding.judgeSpace, h, goes_on, Bool.false_eq_true, if_false, coding]

theorem Decoding.judgeSpace_pulse_complete (h : d.shape = .frame) (coding : pr.coding ≠ .split)
    (whole : d.expected = some d.bits.length) : d.judgeSpace pr n = .failed .violation :=
  Decoding.judgeSpace_closable h ((Decoding.closable_pulse coding).trans (Decoding.complete_iff.2 whole))

theorem Decoding.judgeSpace_split (h : d.shape = .frame) (coding : pr.coding = .split)
    (goes_on : d.closable pr = false) : d.judgeSpace pr n = d.pushPiece pr .space n := by
  simp only [Decoding.judgeSpace, h, goes_on, Bool.false_eq_true, if_false, coding]

/-! ### The end gap and the repeat tracker -/

theorem execEndGapReached_early (h : s.rx.decoder = .bits d) (hp : s.profile d.winner = some pr)
    (early : s.rx.quiet < pr.endGap * pr.cellUs) : execEndGapReached s = .next s := by
  simp only [execEndGapReached, h, hp]
  exact if_neg fun due => Nat.not_le.2 early due.2

theorem execEndGapReached_due (h : s.rx.decoder = .bits d) (hp : s.profile d.winner = some pr)
    (level : s.rx.level = .space) (due : pr.endGap * pr.cellUs ≤ s.rx.quiet) :
    execEndGapReached s = .next (s.closeDecode d pr) := by
  simp only [execEndGapReached, h, hp]
  exact if_pos ⟨level, due⟩

theorem State.closeDecode_marker (h : d.shape = .marker) :
    s.closeDecode d pr = (s.setDecoder .idle).trackMarker d.winner := by rw [State.closeDecode, h]

theorem State.closeDecode_truncated (h : d.shape = .frame) (short : d.closable pr = false) :
    s.closeDecode d pr = s.failClose d.winner .truncated := by
  simp only [State.closeDecode, h, short, Bool.false_eq_true, if_false]

/-- R9, R118: the check of a frame that can close. -/
theorem State.closeDecode_closable (h : d.shape = .frame) (closable : d.closable pr = true) :
    s.closeDecode d pr = if pr.check ≠ .noCheck ∧ (pr.fieldsOf d.closedBits).2.2 ≠
        pr.checkByte (pr.fieldsOf d.closedBits).1 (pr.fieldsOf d.closedBits).2.1 then s.failClose d.winner .check
      else (s.setDecoder .idle).trackFrame
        { profile := d.winner, address := (pr.fieldsOf d.closedBits).1, data := (pr.fieldsOf d.closedBits).2.1 } := by
  simp only [State.closeDecode, h, closable, if_true, Profile.checks, Bool.and_eq_true, bne_iff_ne]

theorem State.trackFrame_none (h : s.rx.tracker = none) (f : Frame) : s.trackFrame f = s.beginHold f := by
  rw [State.trackFrame, h]

theorem execHoldWindowExpiry_none (h : s.rx.tracker = none) : execHoldWindowExpiry s = .next s := by
  rw [execHoldWindowExpiry, h]

theorem State.trackMarker_none (h : s.rx.tracker = none) (q : ProfileId) : s.trackMarker q = s := by
  rw [State.trackMarker, h]

section
variable {h : Hold} (held : s.rx.tracker = some h)
include held

theorem State.trackFrame_held : s.trackFrame h.frame = s.repeatHold h := by
  simp only [State.trackFrame, held, if_true]

theorem State.trackFrame_other {f : Frame} (other : f ≠ h.frame) :
    s.trackFrame f = (s.endHold h).beginHold f := by
  simp only [State.trackFrame, held, if_neg other.symm]

theorem State.trackMarker_held (q : ProfileId) :
    s.trackMarker q = if q = h.frame.profile then s.repeatHold h else s := by
  simp only [State.trackMarker, held, eq_comm]

theorem execHoldWindowExpiry_held :
    execHoldWindowExpiry s = .next (if s.rx.holdTimer = some 0 then s.endHold h else s) := by
  simp only [execHoldWindowExpiry, held, Timer.due, beq_iff_eq]
  split <;> rfl

end

/-- R122: the hold that begins after a RELEASE takes its time and its window from the state before it. -/
theorem State.beginHold_endHold (s : State) (h : Hold) (f : Frame) : (s.endHold h).beginHold f =
    State.deliver { s.endHold h with rx := { (s.endHold h).rx with
      tracker := some { frame := f, repeats := 0, startTime := s.ms, lastTime := s.ms }
      holdTimer := s.holdWindow f.profile } } (.new f) := by
  have ms : (s.endHold h).ms = s.ms := State.deliver_ms _ _
  have window : (s.endHold h).holdWindow f.profile = s.holdWindow f.profile := by
    simp only [State.holdWindow, State.endHold, State.deliver_profile]
    rfl
  simp only [State.beginHold, ms, window]

/-! ### What the receiver's commands reach -/

/-- Nothing but the receiver and what delivery touches differs between s and t, and the repeat tracker is the same. -/
structure State.OnlyDecodes (s t : State) : Prop extends s.OnlyReceives t where
  tracker : t.rx.tracker = s.rx.tracker
  holdTimer : t.rx.holdTimer = s.rx.holdTimer

namespace State.OnlyDecodes

theorem refl (s : State) : s.OnlyDecodes s := ⟨.refl s, rfl, rfl⟩

theorem setDecoder (s : State) (d : Decoder) : s.OnlyDecodes (s.setDecoder d) := ⟨.rx s _, rfl, rfl⟩

theorem failDecode (s : State) (q : ProfileId) (pr : Profile) (k : ErrorKind) : s.OnlyDecodes (s.failDecode q pr k) :=
  ⟨.failDecode s q pr k, by simp [State.failDecode], by simp [State.failDecode]⟩

theorem applyJudgement (s : State) (q : ProfileId) (pr : Profile) (j : Judgement) :
    s.OnlyDecodes (s.applyJudgement q pr j) := by
  cases j with
  | going d => exact setDecoder s _
  | failed k => exact failDecode s q pr k

theorem judgeLeaderSpace (s : State) (qs : List ProfileId) (n : Nat) : s.OnlyDecodes (s.judgeLeaderSpace qs n) := by
  unfold State.judgeLeaderSpace
  repeat' split
  all_goals exact setDecoder s _

theorem judgeLeaderMark (s : State) (n : Nat) : s.OnlyDecodes (s.judgeLeaderMark n) := by
  unfold State.judgeLeaderMark
  split <;> exact setDecoder s _

theorem judgeAtMark (s : State) (n : Nat) : s.OnlyDecodes (s.judgeAtMark n) := by
  unfold State.judgeAtMark
  split
  · split <;> exact setDecoder s _
  · exact judgeLeaderSpace s _ _
  · split
    · exact applyJudgement s _ _ _
    · exact refl s
  all_goals exact refl s

theorem judgeAtSpace (s : State) (n : Nat) : s.OnlyDecodes (s.judgeAtSpace n) := by
  unfold State.judgeAtSpace
  split
  · exact judgeLeaderMark s _
  · split
    · exact applyJudgement s _ _ _
    · exact refl s
  all_goals exact refl s

theorem markTooLong (s : State) : s.OnlyDecodes (s.markTooLong.getD s) := by
  unfold State.markTooLong
  repeat' split
  · exact setDecoder s _
  · exact refl s
  · exact failDecode s _ _ _
  all_goals exact refl s

end State.OnlyDecodes

theorem execDetectMark_decodes (h : execDetectMark s = .next t) :
    s.OnlyDecodes t ∨ s.turnToMark.OnlyDecodes t := by
  unfold execDetectMark at h
  split at h <;> cases h
  · exact .inl (.refl s)
  · exact .inr (.judgeAtMark _ _)

theorem execDetectSpace_decodes (h : execDetectSpace s = .next t) : s.OnlyDecodes t := by
  unfold execDetectSpace at h
  split at h <;> cases h
  · exact .refl s
  · obtain ⟨judged, tracker, holdTimer⟩ := State.OnlyDecodes.judgeAtSpace s.turnToSpace s.rx.markTicks
    exact ⟨.trans (.rx s _) judged, tracker, holdTimer⟩

theorem execMarkTooLong_decodes (h : execMarkTooLong s = .next t) : s.OnlyDecodes t := by
  unfold execMarkTooLong at h
  split at h <;> cases h
  · exact .markTooLong s
  · exact .refl s

theorem execLeaderSpaceTooLong_decodes (h : execLeaderSpaceTooLong s = .next t) : s.OnlyDecodes t := by
  unfold execLeaderSpaceTooLong at h
  repeat' split at h
  all_goals cases h
  · exact .setDecoder s _
  all_goals exact .refl s

theorem execClosingGapReached_decodes (h : execClosingGapReached s = .next t) : s.OnlyDecodes t := by
  unfold execClosingGapReached at h
  repeat' split at h
  all_goals cases h
  · exact .setDecoder s _
  all_goals exact .refl s

theorem execEndGapReached_receives (h : execEndGapReached s = .next t) : s.OnlyReceives t := by
  unfold execEndGapReached at h
  repeat' split at h
  all_goals cases h
  · exact .closeDecode s _ _
  all_goals exact .refl s

theorem execHoldWindowExpiry_receives (h : execHoldWindowExpiry s = .next t) : s.OnlyReceives t := by
  unfold execHoldWindowExpiry at h
  repeat' split at h
  all_goals cases h
  · exact .endHold s _
  all_goals exact .refl s

section
variable {c : Instr} (hc : c ∈ Claims.receiverCommands) (h : exec c s = .next t)
include hc h

/-- R106, R113, R119: what a command of the receiver does that is neither the end gap nor the hold window, after the
turn to mark has made the guard zero. -/
theorem exec_decodes (gap : c ≠ .endGapReached) (window : c ≠ .holdWindowExpiry) :
    s.OnlyDecodes t ∨ c = .detectMark ∧ s.turnToMark.OnlyDecodes t := by
  simp only [Claims.receiverCommands, List.mem_cons, List.not_mem_nil, or_false] at hc
  obtain rfl | rfl | rfl | rfl | rfl | rfl | rfl := hc
  · exact (execDetectMark_decodes h).imp_right fun turned => ⟨rfl, turned⟩
  · exact .inl (execDetectSpace_decodes h)
  · exact .inl (execMarkTooLong_decodes h)
  · exact .inl (execLeaderSpaceTooLong_decodes h)
  · exact absurd rfl gap
  · exact .inl (execClosingGapReached_decodes h)
  · exact absurd rfl window

/-- R106: what every command of the receiver does, the repeat tracker included. -/
theorem exec_receives : s.OnlyReceives t ∨ c = .detectMark ∧ s.turnToMark.OnlyReceives t := by
  by_cases gap : c = .endGapReached
  · subst gap
    exact .inl (execEndGapReached_receives h)
  · by_cases window : c = .holdWindowExpiry
    · subst window
      exact .inl (execHoldWindowExpiry_receives h)
    · exact (exec_decodes hc h gap window).imp (·.toOnlyReceives) (And.imp_right (·.toOnlyReceives))

end

end
end Sys2Proof.Machine

section
open Sys2Proof Sys2Proof.Machine

/-- Settles O8: what each command of the receiver touches, command by command. -/
theorem receiverLeavesTheRest : Obligations.ReceiverLeavesTheRest := by
  intro c hc s t h
  have tracker (gap : c ≠ .endGapReached) (window : c ≠ .holdWindowExpiry) :
      t.rx.tracker = s.rx.tracker ∧ t.rx.holdTimer = s.rx.holdTimer := by
    obtain only | ⟨_, only⟩ := exec_decodes hc h gap window <;> exact ⟨only.tracker, only.holdTimer⟩
  obtain ⟨rest, port, ring, _⟩ | ⟨mark, ⟨rest, port, ring, _⟩⟩ := exec_receives hc h
  · refine ⟨?_, ?_, ?_, ?_, ?_, ?_, ?_, ?_, ?_, fun _ => ?_, tracker, port, ring⟩
    all_goals rw [rest]
  · refine ⟨?_, ?_, ?_, ?_, ?_, ?_, ?_, ?_, ?_, fun other => absurd mark other, tracker, port, ring⟩
    all_goals
      rw [rest]
      rfl

/-- Settles O11: each bound is that of the longest that could be accepted, or of the closing gap. -/
theorem lengthBoundsJudgeEarly : Obligations.LengthBoundsJudgeEarly := by
  refine ⟨fun s level leader long => ?_, fun s d pr level bits hp => ?_, fun s qs longest level leader => ?_,
    fun s q gap tail => execClosingGapReached_tail tail, fun s tail => ?_⟩
  · have judged : exec .markTooLong s = .next _ :=
      (execMarkTooLong_atMark level).trans (by rw [State.markTooLong_leader leader])
    refine ⟨fun passed => ?_, fun ⟨q, pr, listens, hp, within⟩ => ?_⟩
    · rw [judged, if_pos ((State.passes_longestLeader long).2 passed)]
      rfl
    · rw [judged, if_neg fun passed => ?_]
      · rfl
      · have := (State.passes_longestLeader long).1 passed q pr listens hp
        omega
  · intro cells
    have passes : passesNominal (d.markNominal pr) s.rx.markTicks = true ↔
        5 * (cells * pr.cellUs) < 4 * s.rx.markTicks := by
      rw [Decoding.markNominal_eq, passesNominal_double]
    have judged : exec .markTooLong s = .next _ :=
      (execMarkTooLong_atMark level).trans (by rw [State.markTooLong_bits bits hp])
    refine ⟨fun passed => ?_, fun within => ?_⟩
    · rw [judged, if_pos (passes.2 passed)]
      rfl
    · rw [judged, if_neg (mt passes.1 (Nat.not_lt.2 within))]
      rfl
  · have judged : exec .leaderSpaceTooLong s = _ := execLeaderSpaceTooLong_leaderSpace level leader
    exact ⟨fun passed => judged.trans (if_pos passed), fun within => judged.trans (if_neg (Nat.not_lt.2 within))⟩
  · have judged : exec .closingGapReached s = .next (if s.noiseGap ≤ s.rx.quiet then s.setDecoder .idle else s) :=
      execClosingGapReached_tail tail
    refine ⟨fun silent => ?_, fun ⟨q, listens⟩ => ⟨fun passed => ?_, fun ⟨q', pr, listens', hp, short⟩ => ?_⟩⟩
    · rw [judged, State.noiseGap_silent silent]
      rfl
    · rw [judged, if_pos ((State.noiseGap_le_iff listens).2 passed)]
      rfl
    · refine judged.trans (congrArg _ (if_neg fun reached => Nat.not_le.2 short ?_))
      exact (State.noiseGap_le_iff listens).1 reached q' pr listens' hp

/-- Settles O12: a turn in BITS is judged for the winner, a marker by one cell, and SPLIT by halves and cells. -/
theorem turnsInsideBody : Obligations.TurnsInsideBody := by
  refine ⟨fun s d pr bits hp => ?_, fun d pr ticks => ?_⟩
  · intro marked spaced judged
    have applied (u : State) (j : Judgement) : u.applyJudgement d.winner pr j = judged u j := by cases j <;> rfl
    refine ⟨fun level => (execDetectMark_turns level).trans ?_, fun level => (execDetectSpace_turns level).trans ?_⟩
    · rw [State.judgeAtMark_bits (s := s.turnToMark) bits hp, applied]
      rfl
    · rw [State.judgeAtSpace_bits (s := s.turnToSpace) bits hp, applied]
      rfl
  · intro one half both
    have cell : pr.acceptsCells 1 ticks = true ↔ one := Profile.acceptsCell_iff
    have halfCell : pr.acceptsHalves 1 ticks = true ↔ half := Profile.acceptsHalf_iff
    refine ⟨fun marker => ?_, fun frame split => ?_, fun level earlier first => ⟨?_, fun room => ⟨?_, ?_⟩⟩⟩
    · have mark := Decoding.judgeMark_marker (pr := pr) (n := ticks) marker
      exact ⟨fun fits => mark.trans (if_pos (cell.2 fits)), fun misfit => mark.trans (if_neg (mt cell.1 misfit)),
        Decoding.judgeSpace_marker marker⟩
    · have mark := Decoding.judgeMark_split (n := ticks) frame split
      have space (goes_on) := Decoding.judgeSpace_split (n := ticks) frame split goes_on
      have asHalf (fits : half) := Decoding.pushPiece_ofHalf (halfCell.2 fits) d
      have asCell (fits : one) (long : ¬half) (l : Level) : d.pushPiece pr l ticks = both l :=
        Decoding.pushPiece_ofCell (mt halfCell.1 long) (cell.2 fits) d l
      have misfit (noHalf : ¬half) (noCell : ¬one) :=
        Decoding.pushPiece_misfit (mt halfCell.1 noHalf) (mt cell.1 noCell) d
      exact ⟨fun fits => mark.trans (asHalf fits _), fun fits long => mark.trans (asCell fits long _),
        fun noHalf noCell => mark.trans (misfit noHalf noCell _), Decoding.judgeSpace_closable frame,
        fun goes_on fits => (space goes_on).trans (asHalf fits _),
        fun goes_on fits long => (space goes_on).trans (asCell fits long _),
        fun goes_on noHalf noCell => (space goes_on).trans (misfit noHalf noCell _), Decoding.closable_split split⟩
    · exact fun full => Decoding.pushHalf_overflows full level
    · exact fun even => Decoding.pushHalf_opens level (Decoding.room_of_lt room level) (by simp; omega)
    · intro odd halves
      have last : d.halves.getLast? = some first := by rw [halves, List.getLast?_concat]
      have pair : ¬(d.halves ++ [level]).length % 2 = 1 := by simp; omega
      have space := Decoding.room_of_lt room level
      refine ⟨fun equal => Decoding.pushHalf_equal space pair (equal ▸ last), fun differ => ?_⟩
      exact (Decoding.pushHalf_closes space pair last differ.symm).trans rfl

/-- Settles O13: the judgements of the pulse codings; a cell and a longer pulse are not accepted together. -/
theorem pulseBodyJudged : Obligations.PulseBodyJudged := by
  intro d pr ticks frame one two three whole
  have cell : pr.acceptsCells 1 ticks = true ↔ one := Profile.acceptsCell_iff
  have cells2 : pr.acceptsCells 2 ticks = true ↔ two := Profile.acceptsCells_quarters
  have cells3 : pr.acceptsCells 3 ticks = true ↔ three := Profile.acceptsCells_quarters
  refine ⟨fun pdist => ?_, fun pwidth => ?_, fun bit => ⟨fun plain => Decoding.pushBit_goes plain bit, ?_⟩⟩
  · have mark := Decoding.judgeMark_pdist (n := ticks) frame pdist
    have space (unfinished : ¬whole) := Decoding.judgeSpace_pdist (n := ticks) frame pdist unfinished
    have apart (long : three) (real : 0 < ticks) : ¬one := by omega
    exact ⟨fun fits => mark.trans (if_pos (cell.2 fits)), fun misfit => mark.trans (if_neg (mt cell.1 misfit)),
      Decoding.judgeSpace_pulse_complete frame (by simp [pdist]),
      fun unfinished fits => (space unfinished).trans (if_pos (cell.2 fits)),
      fun unfinished long real => (space unfinished).trans
        ((if_neg (mt cell.1 (apart long real))).trans (if_pos (cells3.2 long))),
      fun unfinished short long => (space unfinished).trans
        ((if_neg (mt cell.1 short)).trans (if_neg (mt cells3.1 long)))⟩
  · have mark := Decoding.judgeMark_pwidth (n := ticks) frame pwidth
    have space (unfinished : ¬whole) := Decoding.judgeSpace_pwidth (n := ticks) frame pwidth unfinished
    have apart (long : two) (real : 0 < ticks) : ¬one := by omega
    exact ⟨fun fits => mark.trans (if_pos (cell.2 fits)),
      fun long real => mark.trans ((if_neg (mt cell.1 (apart long real))).trans (if_pos (cells2.2 long))),
      fun short long => mark.trans ((if_neg (mt cell.1 short)).trans (if_neg (mt cells2.1 long))),
      Decoding.judgeSpace_pulse_complete frame (by simp [pwidth]),
      fun unfinished fits => (space unfinished).trans (if_pos (cell.2 fits)),
      fun unfinished misfit => (space unfinished).trans (if_neg (mt cell.1 misfit))⟩
  · intro counted eleven count
    have twelfth := Decoding.pushBit_counts counted eleven bit
    exact ⟨fun large => twelfth.trans (if_pos large), fun small => twelfth.trans (if_neg (Nat.not_le.2 small))⟩

/-- Settles O14: the close of a decode by its shape, its bits and its check. -/
theorem endGapClosesFrame : Obligations.EndGapClosesFrame := by
  intro s d pr bits hp level u fields
  refine ⟨execEndGapReached_early bits hp, fun due => ?_⟩
  have closes {t : State} (h : s.closeDecode d pr = t) : exec .endGapReached s = .next t :=
    (execEndGapReached_due bits hp level due).trans (congrArg _ h)
  refine ⟨fun marker => closes (State.closeDecode_marker marker),
    fun frame short => closes (State.closeDecode_truncated frame short), fun frame closable checked wrong => ?_,
    fun frame closable good => ?_⟩
  · exact closes ((State.closeDecode_closable frame closable).trans (if_pos ⟨checked, wrong⟩))
  · refine closes ((State.closeDecode_closable frame closable).trans (if_neg fun ⟨checked, wrong⟩ => ?_))
    exact good.elim checked wrong

/-- Settles O15: the tracker's rules, with and without a hold. -/
theorem trackerFollowsHolds : Obligations.TrackerFollowsHolds := by
  intro s window new
  refine ⟨fun f free => State.trackFrame_none free f, fun q free => State.trackMarker_none free q,
    execHoldWindowExpiry_none, fun h held => ?_⟩
  intro again released
  refine ⟨State.trackFrame_held held, fun f other => ?_, State.trackMarker_held held, execHoldWindowExpiry_held held⟩
  exact (State.trackFrame_other held other).trans (s.beginHold_endHold h f)

end
end

section
/-! PROOFS. Delivery (R134 to R141): which entries an event selects, which ports want it, and what the offers leave at
each port and in the frame memory. -/

-- The proofs run one after another, for the memory limit of the check.
set_option Elab.async false

namespace Sys2Proof.Machine

/-! ### Matching -/

/-- R136: the masked comparison of two bytes compares them in every bit where the mask holds a 1. -/
theorem masked_eq_zero_iff (a value mask : Byte) :
    (a ^^^ value) &&& mask = 0#8 ↔ ∀ i < 8, mask.getLsbD i = true → a.getLsbD i = value.getLsbD i := by
  rw [BitVec.eq_of_getLsbD_eq_iff]
  refine forall₂_congr fun i _ => ?_
  rw [BitVec.getLsbD_and, BitVec.getLsbD_xor, BitVec.getLsbD_zero]
  cases mask.getLsbD i <;> simp

/-- R135, R136: an entry matches an event with an address, of no port's own transmission. -/
theorem Entry.selects_addressed {x : Entry} {e : Event} {a : Byte} (addressed : e.address = some a)
    (heard : ∀ f source, e ≠ .sentLocal f source) :
    x.selects e = true ↔ x.enabled = true ∧ x.profile = e.profile ∧
      ∀ i < 8, x.mask.getLsbD i = true → a.getLsbD i = x.value.getLsbD i := by
  rw [← masked_eq_zero_iff]
  cases e with
  | sentLocal f source => exact absurd rfl (heard f source)
  | error q k => cases addressed
  | new f | repeated f n | release f n ms => cases addressed; simp [Entry.selects, Event.address, and_assoc]

/-- R135: an ERROR has no address to compare. -/
theorem Entry.selects_error {x : Entry} {q : ProfileId} {k : ErrorKind} :
    x.selects (.error q k) = true ↔ x.enabled = true ∧ x.profile = q := by
  simp [Entry.selects, Event.address, Event.profile]

/-- R137: the entries of the source port of a LOCAL event are not considered. -/
theorem Entry.selects_sentLocal {x : Entry} {f : Frame} {source : Port} :
    x.selects (.sentLocal f source) = true ↔ x.enabled = true ∧ x.profile = f.profile ∧
      (∀ i < 8, x.mask.getLsbD i = true → f.address.getLsbD i = x.value.getLsbD i) ∧ x.owner ≠ source := by
  rw [← masked_eq_zero_iff]
  simp [Entry.selects, Event.address, Event.profile, and_assoc]

/-- R138: a port wants an event where one of its matching entries wants the event's kind. -/
theorem State.wants_iff {s : State} {p : Port} {e : Event} :
    s.wants p e = true ↔ ∃ i x, s.entry i = some x ∧ x.owner = p ∧ x.selects e = true ∧
      x.kinds.getLsbD e.kind.code = true := by
  simp [State.wants, allEntries, State.entrySatisfies_eq_true, kindsContain, and_assoc]

/-! ### One offer -/

/-- What delivery changes at a port is the same in two states: its sequence, its ring's descriptor and its record. -/
structure State.SameDelivery (s t : State) (p : Port) : Prop where
  seq  : t.seqs[p] = s.seqs[p]
  ring : t.ring p = s.ring p
  port : t.port p = s.port p

theorem State.SameDelivery.refl (s : State) (p : Port) : s.SameDelivery s p := ⟨rfl, rfl, rfl⟩

theorem State.SameDelivery.trans {s t u : State} {p : Port} (h : s.SameDelivery t p) (h' : t.SameDelivery u p) :
    s.SameDelivery u p :=
  ⟨h'.seq.trans h.seq, h'.ring.trans h.ring, h'.port.trans h.port⟩

section
variable (s : State) (p : Port) (e : Event) (seq : BitVec 16)

theorem State.offer_seqs : (s.offer p e seq).seqs = s.seqs := by
  unfold State.offer
  cases s.ring p <;> rfl

/-- R150 to R152: the descriptor of the ring offered to. -/
theorem State.offer_ring_self :
    (s.offer p e seq).ring p = (s.ring p).map fun r => (r.offer e seq s.timestamp s.mem).1 := by
  unfold State.offer
  cases hr : s.ring p with
  | none => exact hr
  | some r => rw [State.attend_ring, State.setRing_ring_self]; rfl

/-- An offer to a port leaves the other ports. -/
theorem State.offer_other {k : Port} (hk : k ≠ p) : s.SameDelivery (s.offer p e seq) k := by
  refine ⟨by rw [State.offer_seqs], ?_, ?_⟩
  · unfold State.offer
    cases s.ring p with
    | none => rfl
    | some r => rw [State.attend_ring, State.setRing_ring_ne _ _ _ _ hk]; rfl
  · unfold State.offer
    cases s.ring p with
    | none => rfl
    | some r => rw [State.attend_port, if_neg hk]; rfl

end

/-! ### Delivery to one port -/

section
variable {s : State} {p : Port} {e : Event}

/-- R138: a port that wants nothing of the event is offered nothing. -/
theorem State.deliverTo_unwanted (h : ¬s.wants p e = true) : s.deliverTo e p = s := if_neg h

/-- R138, R140, R141: a port that wants the event is offered its record, under the sequence before the count. -/
theorem State.deliverTo_wanted (h : s.wants p e = true) :
    s.deliverTo e p = ({ s with seqs := s.seqs.set p (s.seqs[p] + 1) }).offer p e s.seqs[p] := if_pos h

/-- R138: whether a port wants an event does not depend on the offers made. -/
theorem State.OnlyDelivers.wants {t : State} (h : s.OnlyDelivers t) (k : Port) : t.wants k e = s.wants k e := by
  have entries : t.entries = s.entries := by rw [h.rest]
  rw [Bool.eq_iff_iff, State.wants_iff, State.wants_iff]
  simp only [State.entry, entries]

theorem State.deliverTo_other {k : Port} (hk : k ≠ p) : s.SameDelivery (s.deliverTo e p) k := by
  by_cases h : s.wants p e = true
  · rw [State.deliverTo_wanted h]
    have counted : s.SameDelivery { s with seqs := s.seqs.set p (s.seqs[p] + 1) } k :=
      ⟨by simp [Fin.val_ne_of_ne hk.symm], rfl, rfl⟩
    exact counted.trans (State.offer_other _ p e _ hk)
  · rw [State.deliverTo_unwanted h]
    exact .refl s k

/-- R140: the sequence counts the offer. -/
theorem State.deliverTo_seq (h : s.wants p e = true) : (s.deliverTo e p).seqs[p] = s.seqs[p] + 1 := by
  simp [State.deliverTo_wanted h, State.offer_seqs]

/-- R141: the record carries the sequence before the count. -/
theorem State.deliverTo_ring (h : s.wants p e = true) :
    (s.deliverTo e p).ring p = (s.ring p).map fun r => (r.offer e s.seqs[p] s.timestamp s.mem).1 := by
  rw [State.deliverTo_wanted h, State.offer_ring_self]
  rfl

theorem State.deliverTo_mem {r : Ring} (h : s.wants p e = true) (hr : s.ring p = some r) :
    (s.deliverTo e p).mem = (r.offer e s.seqs[p] s.timestamp s.mem).2 := by
  have here : ({ s with seqs := s.seqs.set p (s.seqs[p] + 1) } : State).ring p = some r := hr
  rw [State.deliverTo_wanted h, State.offer_mem, here]
  rfl

/-- An offer of the event to port q, if there is one, is to a ring that does not hold the byte at address a. -/
def State.Spares (s : State) (e : Event) (q : Port) (a : Nat) : Prop :=
  s.wants q e = true → ∀ r, s.ring q = some r → 1 ≤ r.depth ∧ ¬r.covers a

/-- Offers leave each ring in its place. -/
theorem State.OnlyDelivers.spares {t : State} {q : Port} {a : Nat} (h : s.OnlyDelivers t) (spares : s.Spares e q a) :
    t.Spares e q a := by
  intro wanted r hr
  rw [h.ring, Option.map_eq_some_iff] at hr
  obtain ⟨r, hr, rfl⟩ := hr
  exact spares ((h.wants q).symm.trans wanted) r hr

/-- A delivery to a port leaves every byte outside the ring it offers to. -/
theorem State.deliverTo_read_ne {a : Nat} (spares : s.Spares e p a) :
    Memory.read a (s.deliverTo e p).mem = Memory.read a s.mem := by
  by_cases h : s.wants p e = true
  · cases hr : s.ring p with
    | none =>
      have here : ({ s with seqs := s.seqs.set p (s.seqs[p] + 1) } : State).ring p = none := hr
      rw [State.deliverTo_wanted h, State.offer_mem, here]
    | some r =>
      obtain ⟨depth, outside⟩ := spares h r hr
      rw [State.deliverTo_mem h hr, Ring.offer_read_ne depth outside]
  · rw [State.deliverTo_unwanted h]

/-! ### Delivery to several ports -/

variable {ps : List Port}

theorem State.OnlyDelivers.deliverAll (s : State) (e : Event) (ps : List Port) :
    s.OnlyDelivers (ps.foldl (State.deliverTo e) s) := by
  induction ps generalizing s with
  | nil => exact .refl s
  | cons p ps ih => exact .trans (.deliverTo e s p) (ih _)

/-- Deliveries to other ports leave a port. -/
theorem State.deliverAll_other (s : State) (e : Event) (hp : p ∉ ps) :
    s.SameDelivery (ps.foldl (State.deliverTo e) s) p := by
  induction ps generalizing s with
  | nil => exact .refl s p
  | cons q ps ih =>
    have first : p ≠ q := fun same => hp (same ▸ List.mem_cons_self)
    exact .trans (State.deliverTo_other first) (ih _ fun later => hp (List.mem_cons_of_mem q later))

/-- Deliveries leave every byte outside the rings they offer to. -/
theorem State.deliverAll_read_ne {a : Nat} (spares : ∀ q ∈ ps, s.Spares e q a) :
    Memory.read a (ps.foldl (State.deliverTo e) s).mem = Memory.read a s.mem := by
  induction ps generalizing s with
  | nil => rfl
  | cons q ps ih =>
    refine (ih fun k hk => ?_).trans (State.deliverTo_read_ne (spares q List.mem_cons_self))
    exact (State.OnlyDelivers.deliverTo e s q).spares (spares k (List.mem_cons_of_mem q hk))

/-! ### A port's turn in a delivery -/

/-- R134: u is the part when the delivery of e comes to port p: what comes before and after are deliveries to the other
ports. -/
structure State.TurnOf (s u : State) (e : Event) (p : Port) : Prop where
  only   : s.OnlyDelivers u
  before : s.SameDelivery u p
  after  : (u.deliverTo e p).SameDelivery (s.deliver e) p
  read   : ∀ a, (∀ q, q ≠ p → s.Spares e q a) → Memory.read a u.mem = Memory.read a s.mem ∧
    Memory.read a (s.deliver e).mem = Memory.read a (u.deliverTo e p).mem

theorem State.exists_turnOf (s : State) (e : Event) (p : Port) : ∃ u, s.TurnOf u e p := by
  obtain ⟨before, after, split⟩ := List.append_of_mem (List.mem_finRange p)
  have nodup := split ▸ List.nodup_finRange 4
  obtain ⟨_, later, apart⟩ := List.nodup_append.1 nodup
  have notBefore : p ∉ before := fun h => apart p h p List.mem_cons_self rfl
  have notAfter : p ∉ after := (List.nodup_cons.1 later).1
  have deliver : s.deliver e =
      after.foldl (State.deliverTo e) ((before.foldl (State.deliverTo e) s).deliverTo e p) := by
    rw [State.deliver, allPorts, split, List.foldl_append, List.foldl_cons]
  have only := State.OnlyDelivers.deliverAll s e before
  refine ⟨before.foldl (State.deliverTo e) s, only, State.deliverAll_other s e notBefore,
    deliver ▸ State.deliverAll_other _ e notAfter, fun a spares => ⟨?_, ?_⟩⟩
  · exact State.deliverAll_read_ne fun q hq => spares q fun same => notBefore (same ▸ hq)
  · rw [deliver]
    exact State.deliverAll_read_ne fun q hq =>
      (only.trans (.deliverTo e _ p)).spares (spares q fun same => notAfter (same ▸ hq))

section
variable {u : State} (turn : s.TurnOf u e p)
include turn

theorem State.TurnOf.wants : u.wants p e = s.wants p e := turn.only.wants p

theorem State.TurnOf.timestamp : u.timestamp = s.timestamp := by rw [turn.only.rest]; rfl

end

/-- R138: a port that wants nothing of the event keeps what it has. -/
theorem State.deliver_unwanted (h : ¬s.wants p e = true) : s.SameDelivery (s.deliver e) p := by
  obtain ⟨u, turn⟩ := s.exists_turnOf e p
  have after := turn.after
  rw [State.deliverTo_unwanted (by rwa [turn.wants])] at after
  exact turn.before.trans after

/-- R138, R140, R150: the sequence and the descriptor of a port that wants the event. -/
theorem State.deliver_wanted (h : s.wants p e = true) : (s.deliver e).seqs[p] = s.seqs[p] + 1 ∧
    (s.deliver e).ring p = (s.ring p).map fun r => (r.offer e s.seqs[p] s.timestamp s.mem).1 := by
  obtain ⟨u, turn⟩ := s.exists_turnOf e p
  have wanted : u.wants p e = true := by rwa [turn.wants]
  rw [turn.after.seq, State.deliverTo_seq wanted, turn.after.ring, State.deliverTo_ring wanted, turn.before.seq,
    turn.before.ring, turn.timestamp]
  exact ⟨rfl, congrArg (Option.map · _) (funext fun r => r.offer_ring e _ _ _ _)⟩

/-- R145: an address in the ring of one port is in the ring of no other. -/
theorem State.ringsLawful.spares (lawful : s.ringsLawful) {r : Ring} (hr : s.ring p = some r) {a : Nat}
    (ha : r.covers a) {q : Port} (other : q ≠ p) : s.Spares e q a := by
  intro _ r' hr'
  have apart := lawful.2 p q r r' other.symm hr hr'
  refine ⟨(lawful.1 q r' hr').1, ?_⟩
  simp only [Ring.touches, decide_eq_false_iff_not, Ring.covers] at apart ha ⊢
  omega

/-- R141, R145, R150: the bytes of the ring of a port that wants the event. The other rings lie elsewhere, so the offers
to them change neither these bytes nor what the port's own offer makes of them. -/
theorem State.deliver_read (lawful : s.ringsLawful) (hm : Memory.wf s.mem = true) (h : s.wants p e = true) {r : Ring}
    (hr : s.ring p = some r) {a : Nat} (ha : r.covers a) :
    Memory.read a (s.deliver e).mem = Memory.read a (r.offer e s.seqs[p] s.timestamp s.mem).2 := by
  obtain ⟨u, turn⟩ := s.exists_turnOf e p
  have wanted : u.wants p e = true := by rwa [turn.wants]
  have own {b : Nat} (hb : r.covers b) := turn.read b fun q other => lawful.spares hr hb other
  calc Memory.read a (s.deliver e).mem
    _ = Memory.read a (r.offer e s.seqs[p] s.timestamp u.mem).2 := by
      rw [(own ha).2, State.deliverTo_mem wanted (turn.before.ring.trans hr), turn.before.seq, turn.timestamp]
    _ = Memory.read a (r.offer e s.seqs[p] s.timestamp s.mem).2 :=
      Ring.offer_read_congr (lawful.1 p r hr).1 hm (turn.only.wf hm) (fun b hb => (own hb).1) ha

end

end Sys2Proof.Machine

section
open Sys2Proof Sys2Proof.Machine

/-- Settles O17: each port has one turn in the delivery, and the offers of the other turns lie outside its ring. -/
theorem eventOfferedOncePerPort : Obligations.EventOfferedOncePerPort := by
  intro s e lawful
  have only := State.OnlyDelivers.deliver s e
  refine ⟨fun p wanted => ?_, fun p unwanted => ?_, only.port, fun a out => ?_, only.rest⟩
  · have wants := State.wants_iff.2 wanted
    obtain ⟨seq, ring⟩ := State.deliver_wanted wants
    exact ⟨seq, ring, fun r hr hm a low high => State.deliver_read lawful hm wants hr ⟨low, high⟩⟩
  · have same := State.deliver_unwanted (mt State.wants_iff.1 unwanted)
    exact ⟨same.seq, same.ring, same.port⟩
  · exact State.deliverAll_read_ne fun q _ wants r hr =>
      ⟨(lawful.1 q r hr).1, out q r (State.wants_iff.1 wants) hr⟩

/-- Settles O16: the address is compared for every event but an ERROR, and the owner for a LOCAL one. -/
theorem entryMatchesByProfileAndMask : Obligations.EntryMatchesByProfileAndMask := fun x _ =>
  ⟨x.selects_addressed rfl nofun, fun _ => x.selects_addressed rfl nofun, fun _ _ => x.selects_addressed rfl nofun,
    fun _ _ => x.selects_error, fun _ => x.selects_sentLocal⟩

end
end

section
/-! PROOFS. The requests that open a session and that report (R133, R156, R172, R176, R184), and the requests of the
subscription table (R127 to R132). -/

-- The proofs run one after another, for the memory limit of the check.
set_option Elab.async false

namespace Sys2Proof.Machine

variable {s : State} {p : Port}

/-! ### OPEN, HELLO and RING_QUERY -/

/-- R140, R172, R177: the part after an OPEN. No notice is held, so ATTNn follows the ring. -/
theorem State.openPort_eq (s : State) (p : Port) : s.openPort p = { s with
    seqs := s.seqs.set p 0
    ports := s.ports.set p { s.port p with
      epoch := (s.port p).epoch + 1, isOpen := true, notices := [], threshold := 1
      attn := decide (1 ≤ s.ringCount p) } } := by
  have attended : s.openPort p = { (s.modifyPort p HostPort.opened).attend p with seqs := s.seqs.set p 0 } := rfl
  rw [attended, State.modifyPort_attend]
  rfl

/-- R176, R184: the bytes of HELLO. -/
theorem State.helloBody_eq (s : State) (p : Port) : s.helloBody p =
    [0x40, 0x02, 1, s.stn.zeroExtend 8, BitVec.ofNat 8 p.val, if (s.port p).isOpen then 1 else 0, (s.port p).epoch,
      4, 24, 4, 4, 16, 128, 64, 8, 3, 30, 4] := by
  have station : byte s.stn.toNat = s.stn.zeroExtend 8 := by simp [byte]
  rw [State.helloBody, station]
  rfl

/-- R156, R184: the bytes of RING_QUERY, ring by ring. -/
theorem State.ringBody_eq (s : State) (p : Port) : s.ringBody p =
    ringFields (s.ring p) ++ ringTriple (s.ring 0) ++ ringTriple (s.ring 1) ++ ringTriple (s.ring 2) ++
      ringTriple (s.ring 3) := by
  have ports : allPorts = [0, 1, 2, 3] := rfl
  simp [State.ringBody, ports]

/-! ### SUB_LIST -/

/-- R133: a port's entries are listed. -/
theorem State.mem_entriesOf {e : EntryId} {x : Entry} :
    (e, x) ∈ s.entriesOf p ↔ s.entry e = some x ∧ x.owner = p := by
  simp [State.entriesOf, allEntries, Option.filter_eq_some_iff]

theorem State.mem_entriesOf_ids {e : EntryId} :
    e ∈ (s.entriesOf p).map Prod.fst ↔ ∃ x, s.entry e = some x ∧ x.owner = p := by
  simp only [List.mem_map, Prod.exists, State.mem_entriesOf, exists_and_right, exists_eq_right]

/-- R133: the entries are listed in increasing id. -/
theorem State.entriesOf_ids_increase (s : State) (p : Port) : ((s.entriesOf p).map Prod.fst).Pairwise (· < ·) := by
  rw [List.pairwise_map, State.entriesOf, List.pairwise_filterMap]
  refine (List.pairwise_lt_finRange 16).imp fun {e e'} lt x hx x' hx' => ?_
  obtain ⟨_, _, rfl⟩ := Option.map_eq_some_iff.1 hx
  obtain ⟨_, _, rfl⟩ := Option.map_eq_some_iff.1 hx'
  exact lt

/-- R184: the four bytes of a listed entry. -/
theorem State.entryBytes_eq (s : State) (e : EntryId) (x : Entry) : s.entryBytes e x =
    [BitVec.ofNat 8 (e.val + 16 * x.profile.val + (if x.enabled then 64 else 0) +
      (if (s.profile x.profile).isSome then 128 else 0)), x.value, x.mask, x.kinds.zeroExtend 8] := by
  have kinds : byte x.kinds.toNat = x.kinds.zeroExtend 8 := by simp [byte]
  have weight (b : Bool) (n : Nat) : n * b.toNat = if b then n else 0 := by cases b <;> simp
  rw [State.entryBytes, kinds, weight, weight]
  rfl

/-- R133, R184: the bytes of SUB_LIST, from a reading of the table that agrees with each entry's bytes. -/
theorem State.entryListBody_eq {bytes : EntryId → List Byte}
    (agrees : ∀ e x, s.entry e = some x → bytes e = s.entryBytes e x) : s.entryListBody p =
      BitVec.ofNat 8 ((s.entriesOf p).map Prod.fst).length :: ((s.entriesOf p).map Prod.fst).flatMap bytes := by
  have listed : ((s.entriesOf p).map Prod.fst).flatMap bytes =
      (s.entriesOf p).flatMap fun x => s.entryBytes x.1 x.2 := by
    rw [List.flatMap_map]
    exact List.flatMap_congr fun x hx => agrees x.1 x.2 (State.mem_entriesOf.1 hx).1
  rw [listed, List.length_map]
  rfl

/-! ### SUBSCRIBE -/

/-- R182: a kinds set with no bit, or with a bit above 4. -/
theorem kindsOf_outOfRange {b : Byte} (out : b.toNat = 0 ∨ 31 < b.toNat) : kindsOf b = none := if_neg (by omega)

theorem kindsOf_inRange {b : Byte} (low : 1 ≤ b.toNat) (high : b.toNat ≤ 31) : kindsOf b = some (b.truncate 5) :=
  if_pos ⟨low, by omega⟩

section
variable {profile value mask kinds flag : Byte}

/-- R128 check 1. -/
theorem entryOfBody_outOfRange
    (out : 3 < profile.toNat ∨ kinds.toNat = 0 ∨ 31 < kinds.toNat ∨ 1 < flag.toNat) :
    entryOfBody p [profile, value, mask, kinds, flag] = none := by
  rw [Option.eq_none_iff_forall_ne_some]
  intro x read
  simp only [entryOfBody, Option.bind_eq_bind, Option.bind_eq_some_iff] at read
  obtain ⟨q, hq, ks, hks, on, hon, _⟩ := read
  obtain out | out | out | out := out
  · exact absurd hq (by simp [bodyNat, bodyByte, finOf_ge out])
  · exact absurd hks (by simp [bodyByte, kindsOf_outOfRange (.inl out)])
  · exact absurd hks (by simp [bodyByte, kindsOf_outOfRange (.inr out)])
  · exact absurd hon (by simp [bodyNat, bodyByte, boolOfCode_gt out])

/-- R128, R183: the entry that a body in range asks for. -/
theorem entryOfBody_inRange (q : ProfileId) (low : 1 ≤ kinds.toNat) (high : kinds.toNat ≤ 31) (on : flag.toNat ≤ 1) :
    entryOfBody p [BitVec.ofNat 8 q.val, value, mask, kinds, flag] = some {
      owner := p, profile := q, value := value, mask := mask, kinds := kinds.truncate 5
      enabled := decide (flag = 1) } := by
  have number : finOf 4 (bodyNat [BitVec.ofNat 8 q.val, value, mask, kinds, flag] 0) = some q := finOf_val q (by omega)
  have set : kindsOf (bodyByte [BitVec.ofNat 8 q.val, value, mask, kinds, flag] 3) = some (kinds.truncate 5) :=
    kindsOf_inRange low high
  have switch : boolOfCode (bodyNat [BitVec.ofNat 8 q.val, value, mask, kinds, flag] 4) = some (decide (flag = 1)) :=
    boolOfCode_le on
  rw [entryOfBody, number, set, switch]
  rfl

end

/-- R129: no entry is free. -/
theorem State.freeEntry_none (full : ∀ e, s.entry e ≠ none) : s.freeEntry = none := by
  rw [State.freeEntry, List.find?_eq_none]
  exact fun e _ free => full e (Option.isNone_iff_eq_none.1 free)

/-- R129: the lowest free entry. -/
theorem State.freeEntry_lowest {e : EntryId} (free : s.entry e = none) (lower : ∀ e' < e, s.entry e' ≠ none) :
    s.freeEntry = some e :=
  find?_finRange.2 ⟨Option.isNone_iff_eq_none.2 free, fun k hk =>
    Option.isNone_eq_false_iff.2 (Option.isSome_iff_ne_none.2 (lower k hk))⟩

section
variable {tag : Byte} {body : List Byte} {x : Entry}

theorem subscribeReply_outOfRange (out : entryOfBody p body = none) :
    subscribeReply p ⟨.subscribe, tag, body⟩ s = Reply.refuse s .badValue := by simp only [subscribeReply, out]

/-- R128 check 2. -/
theorem subscribeReply_undefined (read : entryOfBody p body = some x) (undefined : s.profile x.profile = none) :
    subscribeReply p ⟨.subscribe, tag, body⟩ s = Reply.refuse s .noProfile := by
  simp only [subscribeReply, read, undefined, Option.isNone_none, if_true]

/-- R128 check 3. -/
theorem subscribeReply_full (read : entryOfBody p body = some x) (known : s.profile x.profile ≠ none)
    (full : s.freeEntry = none) : subscribeReply p ⟨.subscribe, tag, body⟩ s = Reply.refuse s .tableFull := by
  simp only [subscribeReply, read, Option.isNone_iff_eq_none, known, if_false, full]

/-- R129. -/
theorem subscribeReply_takes {e : EntryId} (read : entryOfBody p body = some x) (known : s.profile x.profile ≠ none)
    (free : s.freeEntry = some e) : subscribeReply p ⟨.subscribe, tag, body⟩ s =
      { status := .ok, body := [byte e.val], state := s.changeEntry e (some x) } := by
  simp only [subscribeReply, read, Option.isNone_iff_eq_none, known, if_false, free]

end

/-! ### UNSUBSCRIBE and SUB_ENABLE -/

section
variable {id : Byte} {rest : List Byte} {f : EntryId → Entry → Reply}

/-- R130: an id of no entry in use. -/
theorem State.withEntry_free (free : ∀ e x, id = BitVec.ofNat 8 e.val → s.entry e ≠ some x) :
    s.withEntry p (id :: rest) f = Reply.refuse s .badValue := by
  have unnamed : ((finOf 16 (bodyNat (id :: rest) 0)).bind fun e => (s.entry e).map (e, ·)) = none := by
    rw [Option.bind_eq_none_iff]
    intro e he
    have number : id.toNat = e.val := finOf_eq_some.1 he
    rw [Option.map_eq_none_iff, Option.eq_none_iff_forall_ne_some]
    exact fun x => free e x (by rw [← number, BitVec.ofNat_toNat, BitVec.setWidth_eq])
  simp only [State.withEntry, unnamed]

/-- R130: an id of an entry in use. -/
theorem State.withEntry_names {e : EntryId} {x : Entry} (hx : s.entry e = some x) :
    s.withEntry p (BitVec.ofNat 8 e.val :: rest) f = if x.owner = p then f e x else Reply.refuse s .notOwner := by
  have named : ((finOf 16 (bodyNat (BitVec.ofNat 8 e.val :: rest) 0)).bind fun e => (s.entry e).map (e, ·)) =
      some (e, x) := by
    have number : finOf 16 (bodyNat (BitVec.ofNat 8 e.val :: rest) 0) = some e := finOf_val e (by omega)
    rw [number, Option.bind_some, hx, Option.map_some]
  simp only [State.withEntry, named]

/-- R130: the checks of a request that names an entry. -/
theorem State.takeRequest_entry {k : RequestKind} {tag : Byte} {handler : Request → State → Reply}
    (asks : s.asks p k tag (id :: rest))
    (checks : handler ⟨k, tag, id :: rest⟩ s = s.withEntry p (id :: rest) f) :
    ((∀ e x, id = BitVec.ofNat 8 e.val → s.entry e ≠ some x) →
      s.takeRequest k p handler = .next (s.answered p k tag .badValue [])) ∧
    ∀ e x, id = BitVec.ofNat 8 e.val → s.entry e = some x →
      (x.owner ≠ p → s.takeRequest k p handler = .next (s.answered p k tag .notOwner [])) ∧
      (x.owner = p → ∀ reply, f e x = reply →
        s.takeRequest k p handler = .next (reply.state.answered p k tag reply.status reply.body)) := by
  rw [State.takeRequest_asks _ asks, checks]
  refine ⟨fun free => by rw [State.withEntry_free free]; rfl, fun e x named hx => ?_⟩
  subst named
  rw [State.withEntry_names hx]
  exact ⟨fun other => by rw [if_neg other]; rfl, fun own reply replies => by rw [if_pos own, replies]⟩

end

/-- R132: SUB_ENABLE for an entry of the caller. -/
def State.enableEntry (s : State) (flag : Byte) (e : EntryId) (x : Entry) : Reply :=
  match boolOfCode flag.toNat with
  | none => Reply.refuse s .badValue
  | some on =>
    if on = x.enabled then { status := .ok, body := [], state := s }
    else if on = true ∧ (s.profile x.profile).isNone = true then Reply.refuse s .noProfile
    else { status := .ok, body := [], state := s.changeEntry e (some { x with enabled := on }) }

theorem subEnableReply_eq (s : State) (p : Port) (tag id flag : Byte) :
    subEnableReply p ⟨.subEnable, tag, [id, flag]⟩ s = s.withEntry p [id, flag] (s.enableEntry flag) := rfl

section
variable {flag : Byte} {e : EntryId} {x : Entry}

theorem State.enableEntry_outOfRange (out : 1 < flag.toNat) : s.enableEntry flag e x = Reply.refuse s .badValue := by
  rw [State.enableEntry, boolOfCode_gt out]

/-- R132: the flag that the entry has. -/
theorem State.enableEntry_same (same : flag = if x.enabled then 1 else 0) :
    s.enableEntry flag e x = { status := .ok, body := [], state := s } := by
  have read : boolOfCode flag.toNat = some x.enabled := by rw [same]; cases x.enabled <;> rfl
  rw [State.enableEntry, read]
  exact if_pos rfl

/-- R132: on, for an entry that is off. -/
theorem State.enableEntry_on (off : x.enabled = false) : s.enableEntry 1 e x =
    if (s.profile x.profile).isNone = true then Reply.refuse s .noProfile
    else { status := .ok, body := [], state := s.changeEntry e (some { x with enabled := true }) } := by
  simp [State.enableEntry, boolOfCode, off]

/-- R132: off, for an entry that is on. -/
theorem State.enableEntry_off (on : x.enabled = true) : s.enableEntry 0 e x =
    { status := .ok, body := [], state := s.changeEntry e (some { x with enabled := false }) } := by
  simp [State.enableEntry, boolOfCode, on]

end

end Sys2Proof.Machine

section
open Sys2Proof Sys2Proof.Machine

/-- Settles O28: the reply by the port's session. -/
theorem openStartsSession : Obligations.OpenStartsSession := by
  refine fun s p tag asks => ⟨fun isOpen => ?_, fun isClosed => ?_⟩
  · refine (State.takeRequest_asks _ asks).trans ?_
    rw [openReply, if_pos isOpen]
    rfl
  · refine (State.takeRequest_asks _ asks).trans ?_
    rw [openReply, if_neg (Bool.eq_false_iff.1 isClosed), State.openPort_eq]

/-- Settles O32, report by report. -/
theorem reportsChangeNothing : Obligations.ReportsChangeNothing := by
  refine fun s p tag => ⟨fun asks => ?_, fun asks => ?_, fun asks => ?_⟩
  · refine (State.takeRequest_asks _ asks).trans ?_
    rw [helloReply, State.helloBody_eq]
  · refine ⟨(s.entriesOf p).map Prod.fst, s.entriesOf_ids_increase p, fun e => State.mem_entriesOf_ids, ?_⟩
    refine (State.takeRequest_asks _ asks).trans ?_
    rw [← State.entryListBody_eq fun e x hx => by rw [hx, State.entryBytes_eq]]
    rfl
  · intro place
    have triple (q : Port) : place q = ringTriple (s.ring q) := by
      dsimp only [place]
      cases s.ring q <;> rfl
    refine (State.takeRequest_asks _ asks).trans ?_
    rw [ringQueryReply, State.ringBody_eq, triple, triple, triple, triple]
    cases s.ring p <;> rfl

/-- Settles O41: the checks in their order, and the entry taken. -/
theorem subscribeTakesLowestEntry : Obligations.SubscribeTakesLowestEntry := by
  refine fun s p tag profile value mask kinds flag asks => ⟨fun out => ?_, ?_⟩
  · refine (State.takeRequest_asks _ asks).trans ?_
    rw [subscribeReply_outOfRange (entryOfBody_outOfRange out)]
    rfl
  · rintro q rfl low high on
    have read := entryOfBody_inRange (p := p) (value := value) (mask := mask) q low high on
    refine ⟨fun undefined => ?_, fun known full => ?_, fun e known free lower => ?_⟩
    · refine (State.takeRequest_asks _ asks).trans ?_
      rw [subscribeReply_undefined read undefined]
      rfl
    · refine (State.takeRequest_asks _ asks).trans ?_
      rw [subscribeReply_full read known (State.freeEntry_none full)]
      rfl
    · refine (State.takeRequest_asks _ asks).trans ?_
      rw [subscribeReply_takes read known (State.freeEntry_lowest free lower)]
      rfl

/-- Settles O42: both requests check their entry in one way. -/
theorem entryRequestsActOnOwnEntries : Obligations.EntryRequestsActOnOwnEntries := by
  refine fun s p tag id flag => ⟨fun asks => ?_, fun asks => ?_⟩
  · obtain ⟨free, used⟩ := State.takeRequest_entry (handler := unsubscribeReply p) asks rfl
    refine ⟨free, fun e x named hx => ?_⟩
    obtain ⟨other, own⟩ := used e x named hx
    exact ⟨other, fun owner => own owner _ rfl⟩
  · obtain ⟨free, used⟩ := State.takeRequest_entry asks (subEnableReply_eq s p tag id flag)
    refine ⟨free, fun e x named hx => ?_⟩
    obtain ⟨other, own⟩ := used e x named hx
    refine ⟨other, fun owner out => own owner _ (State.enableEntry_outOfRange out),
      fun owner same => own owner _ (State.enableEntry_same same), fun owner off on undefined => ?_,
      fun owner off on known => ?_, fun owner on off => ?_⟩
    · exact own owner _ (on ▸ (State.enableEntry_on off).trans (if_pos (Option.isNone_iff_eq_none.2 undefined)))
    · exact own owner _ (on ▸ (State.enableEntry_on off).trans (if_neg (mt Option.isNone_iff_eq_none.1 known)))
    · exact own owner _ (off ▸ State.enableEntry_off on)

end
end

section
/-! PROOFS. What an offer does to a ring and to the frame memory (R145, R150 to R152, R186): the missed byte of a
record, the slots of a ring's positions, and the record that takes the oldest one's place. -/

-- The proofs run one after another, for the memory limit of the check.
set_option Elab.async false

namespace Sys2Proof.Machine

/-! ### Addresses and records -/

theorem slotAddress_eq (k : Nat) : slotAddress k = 16 * k := Nat.mul_comm _ _

theorem missedAddress_eq (k : Nat) : missedAddress k = 16 * k + 11 := by
  rw [missedAddress, slotAddress_eq]
  rfl

/-- R186: the bytes of a ring record before missed. -/
def Event.recordFront (e : Event) (seq : BitVec 16) : List Byte :=
  [byte (e.kind.code + 8 * e.profile.val + 32 * e.data.length)] ++ le16 seq.toNat ++ [e.byte3] ++ padTo 6 e.data
    ++ [e.byte10]

/-- R186: the bytes of a ring record after missed. -/
def Event.recordBack (e : Event) (time : BitVec 16) : List Byte := le16 time.toNat ++ le16 e.duration

section
variable (e : Event) (seq time : BitVec 16) (missed : Nat)

theorem Event.record_eq :
    e.record seq missed time = e.recordFront seq ++ byte missed :: e.recordBack time := by
  simp [Event.record, Event.recordFront, Event.recordBack]

theorem Event.recordFront_length : (e.recordFront seq).length = 11 := by
  simp [Event.recordFront, padTo, le16]

theorem Event.record_length : (e.record seq missed time).length = 16 := by
  simp [Event.record_eq, Event.recordFront_length, Event.recordBack, le16]

theorem Event.record_missed : (e.record seq missed time)[11]? = some (byte missed) := by
  rw [Event.record_eq, List.getElem?_append_right (by rw [Event.recordFront_length]), Event.recordFront_length]
  rfl

/-- R186: records that differ in missed alone differ in byte 11 alone. -/
theorem Event.record_set_missed (n : Nat) : (e.record seq missed time).set 11 (byte n) = e.record seq n time := by
  rw [Event.record_eq, Event.record_eq, List.set_append_right _ _ (by rw [Event.recordFront_length]),
    Event.recordFront_length]
  rfl

end

/-! ### Bytes of a slot -/

section
variable {k i : Nat} {b : Byte} {m : List Host.Cell}

theorem Memory.readSlot_length : (Memory.readSlot k m).length = 16 := Memory.readBytes_length

theorem Memory.readSlot_getElem? (hi : i < 16) :
    (Memory.readSlot k m)[i]? = some (Memory.read (slotAddress k + i) m) := by
  rw [List.getElem?_eq_getElem (by rwa [Memory.readSlot_length])]
  exact congrArg some (Memory.readBytes_getElem _)

/-- A write of one byte of a slot replaces that byte of what the slot reads as. -/
theorem Memory.readSlot_write (hm : Memory.wf m = true) (hk : k < Config.memSlots) (hi : i < 16) :
    Memory.readSlot k (Memory.write (slotAddress k + i) b m) = (Memory.readSlot k m).set i b := by
  have inside : slotAddress k + i < Config.memBytes := by
    rw [Config.memSlots] at hk
    rw [slotAddress_eq, Config.memBytes]
    omega
  refine List.ext_getElem? fun n => ?_
  obtain hn | hn := Nat.lt_or_ge n 16
  · rw [Memory.readSlot_getElem? hn, List.getElem?_set, Memory.readSlot_getElem? hn]
    by_cases same : i = n
    · subst same
      rw [Memory.read_write_self inside hm, if_pos rfl, if_pos (by rwa [Memory.readSlot_length])]
    · rw [Memory.read_write_ne (by omega), if_neg same]
  · rw [List.getElem?_eq_none (by rwa [Memory.readSlot_length]),
      List.getElem?_eq_none (by rwa [List.length_set, Memory.readSlot_length])]

/-- A slot reads as it did after a write outside it. -/
theorem Memory.readSlot_write_ne {a : Nat} (h : ¬(slotAddress k ≤ a ∧ a < slotAddress k + 16)) :
    Memory.readSlot k (Memory.write a b m) = Memory.readSlot k m :=
  Memory.readSlot_congr fun _ low high => Memory.read_write_ne fun same => h ⟨same ▸ low, same ▸ high⟩

/-- A slot reads as it did after another slot is cleared. -/
theorem Memory.readSlot_clearSlot_ne (h : i ≠ k) :
    Memory.readSlot i (Memory.clearSlot k m) = Memory.readSlot i m := by
  refine Memory.readSlot_congr fun a low high => Memory.read_clearSlot_ne ?_
  rw [slotAddress_eq] at *
  omega

end

/-! ### The positions of a ring -/

section
variable {r : Ring}

theorem Ring.lawful.slotAt_lt (hr : r.lawful) (i : Nat) : r.slotAt i < Config.memSlots := by
  obtain ⟨depth, _, inside, _⟩ := hr
  have := Ring.slotAt_bounds depth i
  omega

/-- R145: the positions within the depth have slots of their own. -/
theorem Ring.slotAt_inj {i j : Nat} (hi : i < r.depth) (hj : j < r.depth) (same : r.slotAt i = r.slotAt j) : i = j := by
  have cong : r.head + i ≡ r.head + j [MOD r.depth] := Nat.add_left_cancel same
  have cong := Nat.ModEq.add_left_cancel' r.head cong
  rwa [Nat.ModEq, Nat.mod_eq_of_lt hi, Nat.mod_eq_of_lt hj] at cong

/-- R145: the oldest record gone, every record stands one position nearer the front. -/
theorem Ring.removeOldest_slotAt (m : List Host.Cell) (i : Nat) : (r.removeOldest m).1.slotAt i = r.slotAt (i + 1) := by
  simp only [Ring.slotAt, Ring.removeOldest, Nat.mod_add_mod, Nat.add_assoc, Nat.add_comm 1]

/-- R145: the position after the last is the first. -/
theorem Ring.slotAt_depth : r.slotAt r.depth = r.slotAt 0 := by
  simp only [Ring.slotAt, Nat.add_mod_right, Nat.add_zero]

end

/-! ### A full KEEP_NEW ring -/

/-- R152: the frame memory with the new record in the slot of the oldest. -/
def Ring.overwritten (r : Ring) (e : Event) (seq time : BitVec 16) (m : List Host.Cell) : List Host.Cell :=
  Memory.writeSlot (r.slotAt 0) (e.record seq 0 time) (Memory.clearSlot (r.slotAt 0) m)

section
variable {r : Ring} {e : Event} {seq time : BitVec 16} {m : List Host.Cell}

theorem Ring.overwritten_wf (hm : Memory.wf m = true) : Memory.wf (r.overwritten e seq time m) = true :=
  Memory.wf_writeSlot (Memory.wf_clearSlot hm)

theorem Ring.overwritten_readSlot (hr : r.lawful) (hm : Memory.wf m = true) :
    Memory.readSlot (r.slotAt 0) (r.overwritten e seq time m) = e.record seq 0 time :=
  Memory.readSlot_writeSlot (Memory.wf_clearSlot hm) (hr.slotAt_lt 0) (e.record_length seq time 0)

theorem Ring.overwritten_read_ne {a : Nat}
    (h : ¬(slotAddress (r.slotAt 0) ≤ a ∧ a < slotAddress (r.slotAt 0) + 16)) :
    Memory.read a (r.overwritten e seq time m) = Memory.read a m :=
  (Memory.read_writeSlot_ne h).trans (Memory.read_clearSlot_ne h)

/-- R152: an offer to a full KEEP_NEW ring. The new record takes the oldest one's place, and the record that is then the
oldest, at the old position 1, accounts for the one that is gone. -/
theorem Ring.offer_full_keepNew (hr : r.lawful) (full : r.count = r.depth) (keepNew : r.policy = .keepNew) :
    r.offer e seq time m = ({ r with head := (r.head + 1) % r.depth },
      Memory.write (missedAddress (r.slotAt 1))
        (byte (min ((Memory.read (missedAddress (r.slotAt 1)) (r.overwritten e seq time m)).toNat +
          (1 + (Memory.read (missedAddress (r.slotAt 0)) m).toNat)) 255)) (r.overwritten e seq time m)) := by
  obtain ⟨depth, _, _, _, _, _, nothing⟩ := hr
  have nothing := nothing keepNew
  have refilled : r.depth - 1 + 1 = r.depth := by omega
  have place : (r.removeOldest m).1.slotAt (r.removeOldest m).1.count = r.slotAt 0 := by
    rw [Ring.removeOldest_slotAt]
    exact (congrArg r.slotAt (by rw [Ring.removeOldest, full, refilled])).trans Ring.slotAt_depth
  have appended : ((r.removeOldest m).1.append e seq time (r.removeOldest m).2) =
      ({ r with head := (r.head + 1) % r.depth }, r.overwritten e seq time m) := by
    rw [Ring.append, place]
    simp only [Ring.removeOldest, full, refilled, nothing, Ring.overwritten]
  have oldest : ({ r with head := (r.head + 1) % r.depth } : Ring).slotAt 0 = r.slotAt 1 :=
    Ring.removeOldest_slotAt (r := r) m 0
  rw [Ring.offer_keepNew e seq time m (by omega) keepNew, appended, Ring.raiseMissed, oldest]
  rfl

/-- R152: a record that has just taken the oldest one's place has missed nothing yet. -/
theorem Ring.overwritten_missed (hr : r.lawful) (hm : Memory.wf m = true) :
    Memory.read (missedAddress (r.slotAt 0)) (r.overwritten e seq time m) = byte 0 := by
  have read := Memory.readSlot_getElem? (k := r.slotAt 0) (m := r.overwritten e seq time m) (i := 11) (by omega)
  rw [Ring.overwritten_readSlot hr hm, Event.record_missed] at read
  exact (Option.some.inj read).symm

section
variable (hr : r.lawful) (hm : Memory.wf m = true) (full : r.count = r.depth) (keepNew : r.policy = .keepNew)
include hr hm full keepNew

/-- R152: in a ring of one slot the new record is itself the oldest. -/
theorem Ring.offer_keepNew_single (single : r.depth = 1) :
    Memory.readSlot (r.slotAt 0) (r.offer e seq time m).2 =
      e.record seq (min (1 + (Memory.read (missedAddress (r.slotAt 0)) m).toNat) 255) time := by
  have same : r.slotAt 1 = r.slotAt 0 := by rw [← Ring.slotAt_depth, single]
  have nothing : (byte 0).toNat = 0 := rfl
  rw [Ring.offer_full_keepNew hr full keepNew, same, Ring.overwritten_missed hr hm, nothing, Nat.zero_add]
  refine (Memory.readSlot_write (Ring.overwritten_wf hm) (hr.slotAt_lt 0) (by decide)).trans ?_
  rw [Ring.overwritten_readSlot hr hm]
  exact e.record_set_missed seq time 0 _

/-- R152: in a longer ring the new record is the newest, and the next oldest accounts for the one that is gone. -/
theorem Ring.offer_keepNew_longer (longer : 2 ≤ r.depth) :
    Memory.readSlot (r.slotAt 0) (r.offer e seq time m).2 = e.record seq 0 time ∧
      (Memory.read (missedAddress (r.slotAt 1)) (r.offer e seq time m).2).toNat =
        min ((Memory.read (missedAddress (r.slotAt 1)) m).toNat +
          (1 + (Memory.read (missedAddress (r.slotAt 0)) m).toNat)) 255 := by
  have apart : r.slotAt 1 ≠ r.slotAt 0 := fun same => by cases Ring.slotAt_inj (by omega) (by omega) same
  have outside : ¬(slotAddress (r.slotAt 0) ≤ missedAddress (r.slotAt 1) ∧
      missedAddress (r.slotAt 1) < slotAddress (r.slotAt 0) + 16) := by
    rw [slotAddress_eq, missedAddress_eq]
    omega
  have inside : missedAddress (r.slotAt 1) < Config.memBytes := by
    have := hr.slotAt_lt 1
    rw [Config.memSlots] at this
    rw [missedAddress_eq, Config.memBytes]
    omega
  rw [Ring.offer_full_keepNew hr full keepNew]
  refine ⟨?_, ?_⟩
  · rw [Memory.readSlot_write_ne outside, Ring.overwritten_readSlot hr hm]
  · rw [Memory.read_write_self inside (Ring.overwritten_wf hm), Ring.overwritten_read_ne outside]
    exact Nat.mod_eq_of_lt (Nat.lt_succ_of_le (Nat.min_le_right _ _))

end

end

end Sys2Proof.Machine

section
open Sys2Proof Sys2Proof.Machine

/-- Settles O18: a ring with room, a full KEEP_OLD ring, and a full KEEP_NEW ring of one slot or more. -/
theorem ringTakesOfferByPolicy : Obligations.RingTakesOfferByPolicy := by
  intro r e seq time m hr hm r' m' slot oldMissed
  have old : (Memory.read (missedAddress (r.slotAt 0)) m).toNat = oldMissed := by rw [missedAddress_eq]; rfl
  refine ⟨fun room => ?_, fun full keepOld => ?_, fun full keepNew => ?_⟩
  · have appended : r.offer e seq time m = r.append e seq time m := Ring.offer_append e seq time m room
    simp only [r', m', appended]
    refine ⟨rfl, Memory.readSlot_writeSlot hm (hr.slotAt_lt _) (e.record_length seq time _), fun a outside => ?_⟩
    exact Memory.read_writeSlot_ne (by rwa [slotAddress_eq])
  · have dropped := Ring.offer_keepOld e seq time m (Nat.not_lt.2 full.ge) keepOld
    exact ⟨congrArg Prod.fst dropped, congrArg Prod.snd dropped⟩
  · have overwrites := Ring.offer_full_keepNew (e := e) (seq := seq) (time := time) (m := m) hr full keepNew
    refine ⟨congrArg Prod.fst overwrites, fun single => ?_, fun longer => ?_, fun a outside other => ?_⟩
    · rw [← old]
      exact Ring.offer_keepNew_single hr hm full keepNew single
    · rw [← old, ← missedAddress_eq]
      exact Ring.offer_keepNew_longer hr hm full keepNew longer
    · refine (congrArg (Memory.read a ∘ Prod.snd) overwrites).trans ?_
      exact (Memory.read_write_ne (by rwa [missedAddress_eq])).trans (Ring.overwritten_read_ne (by rwa [slotAddress_eq]))

end
end

section
/-! PROOFS. The requests that change a ring (R146 to R148, R154): RING_READ takes the oldest records, and RING_SET puts
an empty ring, or none, in the place of the old one. -/

-- The proofs run one after another, for the memory limit of the check.
set_option Elab.async false

namespace Sys2Proof.Machine

/-! ### Taking the oldest records -/

section
variable {r : Ring} {n : Nat}

/-- R154: the descriptor after a read of n records. -/
theorem Ring.takeOldest_ring (inside : r.head < r.depth) (m : List Host.Cell) (n : Nat) :
    (r.takeOldest m n).2.1 = { r with head := (r.head + n) % r.depth, count := r.count - n } := by
  induction n generalizing r m with
  | zero => rw [Nat.add_zero, Nat.mod_eq_of_lt inside]; rfl
  | succ n ih =>
    have next : (r.removeOldest m).1.head < (r.removeOldest m).1.depth := Nat.mod_lt _ (Nat.zero_lt_of_lt inside)
    refine (ih next (r.removeOldest m).2).trans ?_
    simp only [Ring.removeOldest, Nat.mod_add_mod, Nat.add_assoc, Nat.add_comm 1, Nat.sub_sub]

/-- R145, R154: the records are returned as they stood, since each position within the depth has a slot of its own. -/
theorem Ring.takeOldest_bytes (m : List Host.Cell) (within : n ≤ r.depth) :
    (r.takeOldest m n).1 = (List.range n).flatMap fun i => Memory.readSlot (r.slotAt i) m := by
  induction n generalizing r m with
  | zero => rfl
  | succ n ih =>
    have later : ∀ i ∈ List.range n, Memory.readSlot ((r.removeOldest m).1.slotAt i) (r.removeOldest m).2 =
        Memory.readSlot (r.slotAt (i + 1)) m := fun i hi => by
      have hi := List.mem_range.1 hi
      rw [Ring.removeOldest_slotAt]
      exact Memory.readSlot_clearSlot_ne fun same => by cases Ring.slotAt_inj (by omega) (by omega) same
    rw [List.range_succ_eq_map, List.flatMap_cons, List.flatMap_map]
    refine congrArg (Memory.readSlot (r.slotAt 0) m ++ ·) ?_
    exact (ih (r := (r.removeOldest m).1) _ (Nat.le_of_succ_le within)).trans (List.flatMap_congr later)

/-- R154: a read leaves every byte outside the slots it empties. -/
theorem Ring.takeOldest_read_ne {m : List Host.Cell} {a : Nat}
    (outside : ∀ i < n, ¬(slotAddress (r.slotAt i) ≤ a ∧ a < slotAddress (r.slotAt i) + 16)) :
    Memory.read a (r.takeOldest m n).2.2 = Memory.read a m := by
  induction n generalizing r m with
  | zero => rfl
  | succ n ih =>
    have rest : ∀ i < n, ¬(slotAddress ((r.removeOldest m).1.slotAt i) ≤ a ∧
        a < slotAddress ((r.removeOldest m).1.slotAt i) + 16) := fun i hi => by
      rw [Ring.removeOldest_slotAt]
      exact outside (i + 1) (by omega)
    exact (ih rest).trans (Memory.read_clearSlot_ne (outside 0 (by omega)))

theorem Ring.takeOldest_wf {m : List Host.Cell} (hm : Memory.wf m = true) :
    Memory.wf (r.takeOldest m n).2.2 = true := by
  induction n generalizing r m with
  | zero => exact hm
  | succ n ih => exact ih (r := (r.removeOldest m).1) (Memory.wf_clearSlot hm)

end

/-! ### The port's ring replaced -/

section
variable {s : State} {p : Port}

/-- R177: a ring put in place, with ATTNn at the level that its count asks for. -/
theorem State.setRing_attend (s : State) (p : Port) (r : Option Ring) (m : List Host.Cell) :
    (({ s with mem := m } : State).setRing p r).attend p = { s with
      mem := m, rings := s.rings.set p r
      ports := s.ports.set p { s.port p with
        attn := (s.port p).isOpen &&
          (!(s.port p).notices.isEmpty || decide ((s.port p).threshold ≤ (r.map (·.count)).getD 0)) } } := by
  have due : (({ s with mem := m } : State).setRing p r).attentionDue p = ((s.port p).isOpen &&
      (!(s.port p).notices.isEmpty || decide ((s.port p).threshold ≤ (r.map (·.count)).getD 0))) := by
    rw [State.attentionDue, State.ringCount, State.setRing_ring_self]
    rfl
  rw [State.attend, due]
  rfl

theorem State.replaceRing_eq (s : State) (p : Port) (r : Option Ring) :
    s.replaceRing p r = (({ s with mem := s.memWithoutRing p }).setRing p r).attend p := by
  unfold State.replaceRing State.memWithoutRing
  rfl

/-- R143, R147: a ring without records, or none, in the place of the old one. -/
theorem State.replaceRing_empty (s : State) (p : Port) {r : Option Ring} (empty : (r.map (·.count)).getD 0 = 0) :
    s.replaceRing p r = { s with
      mem := s.memWithoutRing p, rings := s.rings.set p r
      ports := s.ports.set p { s.port p with
        attn := (s.port p).isOpen && (!(s.port p).notices.isEmpty || decide ((s.port p).threshold = 0)) } } := by
  rw [State.replaceRing_eq, State.setRing_attend]
  simp only [empty, Nat.le_zero_eq]

/-! ### RING_READ -/

theorem State.readRing_none (undefined : s.ring p = none) (n : Nat) :
    s.readRing p n = { status := .ok, body := [0, 0, 0], state := s } := by
  rw [State.readRing, undefined]

/-- R154: what a read takes, what it leaves of the descriptor, and what it leaves of the frame memory. -/
theorem State.readRing_some {r : Ring} (defined : s.ring p = some r) (lawful : r.lawful) (n : Nat) :
    s.readRing p n = {
      status := .ok
      body := [1, byte (min n r.count), byte (r.count - min n r.count)] ++
        (List.range (min n r.count)).flatMap fun i => Memory.readSlot (r.slotAt i) s.mem
      state := (({ s with mem := (r.takeOldest s.mem (min n r.count)).2.2 } : State).setRing p (some { r with
        head := (r.head + min n r.count) % r.depth, count := r.count - min n r.count })).attend p } := by
  obtain ⟨_, _, _, inside, fits, _⟩ := lawful
  simp only [State.readRing, defined, Ring.takeOldest_ring inside,
    Ring.takeOldest_bytes s.mem ((Nat.min_le_right n r.count).trans fits)]

/-! ### RING_SET -/

theorem Policy.ofCode_reads (n : Nat) (k : Policy) :
    Policy.ofCode n = some k ↔ n ≤ 1 ∧ (if n = 0 then .keepOld else .keepNew) = k := by
  match n with
  | 0 | 1 => simp [Policy.ofCode]
  | n + 2 => simp [Policy.ofCode]

theorem boolOfCode_reads (n : Nat) (k : Bool) : boolOfCode n = some k ↔ n ≤ 1 ∧ decide (n = 1) = k := by
  match n with
  | 0 | 1 => simp [boolOfCode]
  | n + 2 => simp [boolOfCode]

/-- R146 check 1: a body reads as a ring when its fields are in range, and as the ring of those fields. -/
theorem ringRequestOfBody_eq_some {body : List Byte} {x : RingRequest} :
    ringRequestOfBody body = some x ↔
      (bodyNat body 0 ≤ 127 ∧ bodyNat body 1 ≤ 64 ∧ bodyNat body 2 ≤ 1 ∧ bodyNat body 3 ≤ 1) ∧
        { base := bodyNat body 0, depth := bodyNat body 1
          policy := if bodyNat body 2 = 0 then .keepOld else .keepNew
          discard := decide (bodyNat body 3 = 1) } = x := by
  unfold ringRequestOfBody
  rw [bind_reads (inRange_reads _ _ _), bind_reads (inRange_reads _ _ _), bind_reads (Policy.ofCode_reads _),
    bind_reads (boolOfCode_reads _), Option.some.injEq]
  simp only [Nat.zero_le, true_and, and_assoc, Config.maxDepth]

section
variable {base depth policy discard : Byte}

theorem ringSetReply_outOfRange (s : State) (p : Port) (tag : Byte)
    (out : 127 < base.toNat ∨ 64 < depth.toNat ∨ 1 < policy.toNat ∨ 1 < discard.toNat) :
    ringSetReply p ⟨.ringSet, tag, [base, depth, policy, discard]⟩ s = Reply.refuse s .badValue := by
  have unread : ringRequestOfBody [base, depth, policy, discard] = none := by
    refine Option.eq_none_iff_forall_ne_some.2 fun x read => ?_
    obtain ⟨⟨hbase, hdepth, hpolicy, hdiscard⟩, _⟩ := ringRequestOfBody_eq_some.1 read
    simp only [bodyNat, bodyByte, List.getD_cons_zero, List.getD_cons_succ] at hbase hdepth hpolicy hdiscard
    omega
  simp only [ringSetReply, unread]

/-- R183: the ring that the bytes of a RING_SET ask for. -/
def RingRequest.ofBytes (base depth policy discard : Byte) : RingRequest :=
  { base := base.toNat, depth := depth.toNat, policy := if policy = 0 then .keepOld else .keepNew
    discard := decide (discard ≠ 0) }

theorem ringSetReply_inRange (s : State) (p : Port) (tag : Byte) (hbase : base.toNat ≤ 127) (hdepth : depth.toNat ≤ 64)
    (hpolicy : policy.toNat ≤ 1) (hdiscard : discard.toNat ≤ 1) :
    ringSetReply p ⟨.ringSet, tag, [base, depth, policy, discard]⟩ s =
      s.placeRing p (.ofBytes base depth policy discard) := by
  have zero (b : Byte) : b = 0 ↔ b.toNat = 0 := BitVec.toNat_inj.symm
  have flag : discard.toNat = 1 ↔ discard ≠ 0 := by
    rw [Ne, zero]
    omega
  have read : ringRequestOfBody [base, depth, policy, discard] = some (.ofBytes base depth policy discard) := by
    refine ringRequestOfBody_eq_some.2 ⟨⟨hbase, hdepth, hpolicy, hdiscard⟩, ?_⟩
    simp only [RingRequest.ofBytes, zero policy, ← flag]
    rfl
  simp only [ringSetReply, read]

/-- R147, R148: an empty ring, or with a depth of 0 none. -/
theorem RingRequest.ofBytes_ring : (RingRequest.ofBytes base depth policy discard).ring = if depth = 0 then none else
    some { base := base.toNat, depth := depth.toNat, policy := if policy = 0 then .keepOld else .keepNew
           head := 0, count := 0, pendingMissed := 0 } := by
  have zero : depth.toNat = 0 ↔ depth = 0 := BitVec.toNat_inj (y := 0)
  simp only [RingRequest.ring, RingRequest.ofBytes, zero]

end

/-- R147: the ring that a RING_SET leaves holds no record. -/
theorem RingRequest.ring_empty (x : RingRequest) : (x.ring.map (·.count)).getD 0 = 0 := by
  unfold RingRequest.ring
  split <;> rfl

/-- R146 check 3: the range meets the slots of a ring of another port. -/
theorem State.overlaps_iff {base depth : Nat} : s.overlaps p base depth = true ↔
    ∃ q r, q ≠ p ∧ s.ring q = some r ∧ base < r.base + r.depth ∧ r.base < base + depth := by
  simp [State.overlaps, allPorts, Option.any_eq_true, Ring.touches]

/-! The checks 2 to 4 of R146 in their order. -/

section
variable {x : RingRequest}

theorem State.placeRing_past (past : 1 ≤ x.depth ∧ Config.memSlots < x.base + x.depth) :
    s.placeRing p x = Reply.refuse s .badRange := if_pos past

variable (fits : ¬(1 ≤ x.depth ∧ Config.memSlots < x.base + x.depth))
include fits

theorem State.placeRing_meets (meets : 1 ≤ x.depth ∧ s.overlaps p x.base x.depth = true) :
    s.placeRing p x = Reply.refuse s .overlap := (if_neg fits).trans (if_pos meets)

variable (apart : ¬(1 ≤ x.depth ∧ s.overlaps p x.base x.depth = true))
include apart

theorem State.placeRing_waits (waits : 0 < s.ringCount p ∧ x.discard = false) :
    s.placeRing p x = Reply.refuse s .ringNotEmpty := (if_neg fits).trans ((if_neg apart).trans (if_pos waits))

theorem State.placeRing_places (free : ¬(0 < s.ringCount p ∧ x.discard = false)) :
    s.placeRing p x = { status := .ok, body := [], state := s.replaceRing p x.ring } :=
  (if_neg fits).trans ((if_neg apart).trans (if_neg free))

end

end

end Sys2Proof.Machine

section
open Sys2Proof Sys2Proof.Machine

/-- Settles O45: the count is read, and the records, the descriptor and ATTNn follow from it. -/
theorem ringReadRemovesOldest : Obligations.RingReadRemovesOldest := by
  refine fun s p tag n asks => ⟨fun out => (State.takeRequest_asks _ asks).trans ?_, fun low high => ?_⟩
  · simp only [ringReadReply, readCountOfBody_outOfRange out]
    rfl
  have reads : ringReadReply p ⟨.ringRead, tag, [n]⟩ s = s.readRing p n.toNat := by
    simp only [ringReadReply, readCountOfBody_inRange low high]
  refine ⟨fun undefined => (State.takeRequest_asks _ asks).trans ?_, fun r defined lawful => ?_⟩
  · rw [reads, State.readRing_none undefined]
  · intro k slot
    refine ⟨(r.takeOldest s.mem k).2.2, (State.takeRequest_asks _ asks).trans ?_, fun a outside => ?_⟩
    · rw [reads, State.readRing_some defined lawful, State.setRing_attend]
      rfl
    · exact Ring.takeOldest_read_ne fun i hi => by rw [slotAddress_eq]; exact outside i hi

/-- Settles O44: the body is read, the checks are made in their order, and the empty ring takes the old one's place. -/
theorem ringSetPlacesEmptyRing : Obligations.RingSetPlacesEmptyRing := by
  intro s p tag base depth policy discard asks refused past meets waits
  have answers {reply : Reply} (replies : ringSetReply p ⟨.ringSet, tag, [base, depth, policy, discard]⟩ s = reply) :
      exec (.ringSet p) s = .next (reply.state.answered p .ringSet tag reply.status reply.body) :=
    replies ▸ State.takeRequest_asks _ asks
  refine ⟨fun out => answers (ringSetReply_outOfRange s p tag out), fun hbase hdepth hpolicy hdiscard => ?_⟩
  have reads := ringSetReply_inRange s p tag hbase hdepth hpolicy hdiscard
  have overlaps : meets ↔ 1 ≤ depth.toNat ∧ s.overlaps p base.toNat depth.toNat = true :=
    and_congr_right fun _ => State.overlaps_iff.symm
  have kept : waits ↔ 0 < s.ringCount p ∧ decide (discard ≠ 0) = false := by simp [waits]
  refine ⟨fun past => answers (reads.trans (State.placeRing_past past)),
    fun fits meets => answers (reads.trans (State.placeRing_meets fits (overlaps.1 meets))),
    fun fits apart waits => answers (reads.trans (State.placeRing_waits fits (mt overlaps.2 apart) (kept.1 waits))),
    fun fits apart free => ?_⟩
  intro ring
  have placed := State.placeRing_places (x := .ofBytes base depth policy discard) fits (mt overlaps.2 apart)
    (mt kept.2 free)
  rw [s.replaceRing_empty p (RingRequest.ring_empty _), RingRequest.ofBytes_ring] at placed
  refine ⟨s.memWithoutRing p, answers (reads.trans placed), State.memWithoutRing_none,
    fun r hr => ⟨fun lawful wf i hi => ?_, fun a outside => ?_⟩⟩
  · rw [State.memWithoutRing_some hr]
    exact Ring.clear_readSlot lawful wf hi
  · rw [State.memWithoutRing_some hr]
    exact Ring.clear_read_ne fun i hi => by rw [slotAddress_eq]; exact outside i hi

end
end

section
/-! PROOFS. The laws of the frame memory and of the rings (R143 to R145, R153): what a command can do to them, one
`State.RingStep` after another, each of which keeps both laws. -/

-- The proofs run one after another, for the memory limit of the check.
set_option Elab.async false

namespace Sys2Proof.Machine

/-! ### A lawful ring stays lawful -/

section
variable {r : Ring}

/-- R150 to R152: an offer keeps a ring within its bounds, and under KEEP_NEW leaves nothing pending (R153). -/
theorem Ring.lawful.offer (hr : r.lawful) (e : Event) (seq time : BitVec 16) (m : List Host.Cell) :
    (r.offer e seq time m).1.lawful := by
  have lawful := hr
  obtain ⟨depth, most, place, head, fits, pending, nothing⟩ := hr
  obtain room | full := Nat.lt_or_eq_of_le fits
  · rw [Ring.offer_append e seq time m room]
    exact ⟨depth, most, place, head, room, Nat.zero_le _, fun _ => rfl⟩
  · cases policy : r.policy with
    | keepOld =>
      rw [Ring.offer_keepOld e seq time m (Nat.not_lt.2 full.ge) policy]
      exact ⟨depth, most, place, head, fits, Nat.min_le_right _ _, fun other => by cases policy.symm.trans other⟩
    | keepNew =>
      rw [Ring.offer_full_keepNew lawful full policy]
      exact ⟨depth, most, place, Nat.mod_lt _ depth, fits, pending, nothing⟩

/-- R154: a read keeps a ring within its bounds. -/
theorem Ring.lawful.take (hr : r.lawful) (k : Nat) :
    ({ r with head := (r.head + k) % r.depth, count := r.count - k } : Ring).lawful := by
  obtain ⟨depth, most, place, _, fits, pending⟩ := hr
  exact ⟨depth, most, place, Nat.mod_lt _ depth, (Nat.sub_le _ _).trans fits, pending⟩

end

/-! ### Which rings a port may have -/

/-- R145: port p may have the ring x, or none: x is lawful and shares no slot with the ring of another port. -/
def State.admits (s : State) (p : Port) (x : Option Ring) : Prop :=
  ∀ r, x = some r → r.lawful ∧ ∀ q r', q ≠ p → s.ring q = some r' → r'.touches r.base r.depth = false

theorem Ring.touches_comm (r r' : Ring) : r.touches r'.base r'.depth = r'.touches r.base r.depth := by
  simp only [Ring.touches, and_comm]

section
variable {s t : State} {p : Port}

theorem State.ringsLawful_iff : s.ringsLawful ↔ ∀ p, s.admits p (s.ring p) := by
  constructor
  · exact fun ⟨each, apart⟩ p r hr => ⟨each p r hr, fun q r' other hr' => apart q p r' r other hr' hr⟩
  · exact fun h => ⟨fun p r hr => (h p r hr).1, fun p q r r' other hr hr' => (h q r' hr').2 p r other hr⟩

theorem State.ringsLawful.congr (h : s.ringsLawful) (rings : t.rings = s.rings) : t.ringsLawful := by
  unfold State.ringsLawful State.ring at *
  rwa [rings]

/-- R145: the law holds with an admitted ring in place of a port's own. -/
theorem State.ringsLawful.setRing (h : s.ringsLawful) {x : Option Ring} (admits : s.admits p x) :
    (s.setRing p x).ringsLawful := by
  refine State.ringsLawful_iff.2 fun k r hr => ?_
  by_cases hk : k = p
  · subst k
    rw [State.setRing_ring_self] at hr
    obtain ⟨lawful, apart⟩ := admits r hr
    exact ⟨lawful, fun q r' other hr' => apart q r' other (State.setRing_ring_ne s p q x other ▸ hr')⟩
  · rw [State.setRing_ring_ne s p k x hk] at hr
    obtain ⟨lawful, apart⟩ := State.ringsLawful_iff.1 h k r hr
    refine ⟨lawful, fun q r' other hr' => ?_⟩
    by_cases hq : q = p
    · subst q
      rw [State.setRing_ring_self] at hr'
      rw [Ring.touches_comm]
      exact (admits r' hr').2 k r hk hr
    · exact apart q r' other (State.setRing_ring_ne s p q x hq ▸ hr')

/-- R145: a port may have any lawful ring in the slots of the ring it has. -/
theorem State.ringsLawful.admits (h : s.ringsLawful) {r r' : Ring} (hr : s.ring p = some r) (lawful : r'.lawful)
    (base : r'.base = r.base) (depth : r'.depth = r.depth) : s.admits p (some r') := by
  rintro _ ⟨⟩
  rw [base, depth]
  exact ⟨lawful, (State.ringsLawful_iff.1 h p r hr).2⟩

/-! ### What a command does to the rings -/

/-- R141, R147, R154, R157, R180: the changes of the rings and of the frame memory, and those beside them. -/
inductive State.RingStep (s : State) : State → Prop
  | beside (t : State) (mem : t.mem = s.mem) (rings : t.rings = s.rings) : s.RingStep t
  | offered (p : Port) (e : Event) (seq : BitVec 16) : s.RingStep (s.offer p e seq)
  | read (p : Port) (n : Nat) : s.RingStep (s.readRing p n).state
  | placed (p : Port) (x : Option Ring) (admits : s.admits p x) : s.RingStep (s.replaceRing p x)
  | reset (straps : BitVec 4) : s.RingStep
      { State.reset with stn := straps, ports := s.ports.map HostPort.fullReset, pending := s.pending }

/-- R143: each change keeps the form of the frame memory. -/
theorem State.RingStep.wf (h : s.RingStep t) (hs : Memory.wf s.mem = true) : Memory.wf t.mem = true := by
  cases h with
  | beside t mem => rwa [mem]
  | offered p e seq => exact (State.OnlyDelivers.offer s p e seq).wf hs
  | read p n =>
    unfold State.readRing
    split
    · exact hs
    · exact Ring.takeOldest_wf hs
  | placed p x =>
    change Memory.wf (s.memWithoutRing p) = true
    unfold State.memWithoutRing
    split
    · exact Ring.clear_wf hs
    · exact hs
  | reset => exact Memory.wf_reset

/-- R145: each change keeps the rings apart and in their bounds. -/
theorem State.RingStep.ringsLawful (h : s.RingStep t) (hs : s.ringsLawful) : t.ringsLawful := by
  cases h with
  | beside t _ rings => exact hs.congr rings
  | offered p e seq =>
    unfold State.offer
    split
    · exact hs
    · rename_i r hr
      obtain ⟨base, depth, _⟩ := r.offer_place e seq s.timestamp s.mem
      have lawful := (hs.1 p r hr).offer e seq s.timestamp s.mem
      exact (hs.setRing (hs.admits hr lawful base depth)).congr rfl
  | read p n =>
    cases hr : s.ring p with
    | none => rwa [State.readRing_none hr]
    | some r =>
      have lawful := hs.1 p r hr
      rw [State.readRing_some hr lawful]
      exact (hs.setRing (hs.admits hr (lawful.take _) rfl rfl)).congr rfl
  | placed p x admits => exact (hs.setRing admits).congr rfl
  | reset straps =>
    have none (p : Port) : State.reset.ring p = none := by simp [State.ring, State.reset]
    exact ⟨fun p r hr => (by cases (none p).symm.trans hr), fun p q r r' _ hr => by cases (none p).symm.trans hr⟩

/-- What a command does to the rings and the frame memory: such changes, one after another. -/
def State.RingSteps : State → State → Prop := Relation.ReflTransGen State.RingStep

end

namespace State.RingSteps
variable {s t u : State}

theorem refl (s : State) : s.RingSteps s := Relation.ReflTransGen.refl

theorem trans (h : s.RingSteps t) (h' : t.RingSteps u) : s.RingSteps u := Relation.ReflTransGen.trans h h'

theorem step (h : s.RingStep t) : s.RingSteps t := Relation.ReflTransGen.single h

theorem beside (mem : t.mem = s.mem) (rings : t.rings = s.rings) : s.RingSteps t := step (.beside t mem rings)

/-- A law that each change keeps is kept by all of them together. -/
theorem keeps {law : State → Prop} (step : ∀ s t, s.RingStep t → law s → law t) (h : s.RingSteps t) (hs : law s) :
    law t :=
  Relation.ReflTransGen.head_induction_on (motive := fun u _ => law u → law t) h id
    (fun change _ rest hu => rest (step _ _ change hu)) hs

/-! ### Delivery and the receiver -/

theorem rx (s : State) (r : Receiver) : s.RingSteps { s with rx := r } := beside rfl rfl

theorem deliver (s : State) (e : Event) : s.RingSteps (s.deliver e) := by
  unfold State.deliver
  generalize allPorts = ps
  induction ps generalizing s with
  | nil => exact refl s
  | cons p ps ih =>
    refine trans ?_ (ih _)
    by_cases wanted : s.wants p e = true
    · rw [State.deliverTo_wanted wanted]
      exact trans (t := { s with seqs := s.seqs.set p (s.seqs[p] + 1) }) (beside rfl rfl) (step (.offered p e _))
    · rw [State.deliverTo_unwanted wanted]
      exact refl s

theorem failDecode (s : State) (q : ProfileId) (pr : Profile) (k : ErrorKind) : s.RingSteps (s.failDecode q pr k) :=
  trans (rx s _) (deliver _ _)

theorem failClose (s : State) (q : ProfileId) (k : ErrorKind) : s.RingSteps (s.failClose q k) :=
  trans (rx s _) (deliver _ _)

theorem applyJudgement (s : State) (q : ProfileId) (pr : Profile) (j : Judgement) :
    s.RingSteps (s.applyJudgement q pr j) := by
  cases j with
  | going d => exact beside rfl rfl
  | failed k => exact failDecode s q pr k

theorem judgeAtMark (s : State) (space : Nat) : s.RingSteps (s.judgeAtMark space) := by
  unfold State.judgeAtMark
  split
  · split <;> exact beside rfl rfl
  · unfold State.judgeLeaderSpace
    repeat' split
    all_goals exact beside rfl rfl
  · split
    · exact applyJudgement s _ _ _
    · exact refl s
  all_goals exact refl s

theorem judgeAtSpace (s : State) (mark : Nat) : s.RingSteps (s.judgeAtSpace mark) := by
  unfold State.judgeAtSpace
  split
  · unfold State.judgeLeaderMark
    split <;> exact beside rfl rfl
  · split
    · exact applyJudgement s _ _ _
    · exact refl s
  all_goals exact refl s

theorem markTooLong (s : State) : s.RingSteps (s.markTooLong.getD s) := by
  unfold State.markTooLong
  repeat' split
  · exact beside rfl rfl
  · exact refl s
  · exact failDecode s _ _ _
  all_goals exact refl s

theorem repeatHold (s : State) (h : Hold) : s.RingSteps (s.repeatHold h) := trans (rx s _) (deliver _ _)

theorem beginHold (s : State) (f : Frame) : s.RingSteps (s.beginHold f) := trans (rx s _) (deliver _ _)

theorem endHold (s : State) (h : Hold) : s.RingSteps (s.endHold h) := trans (rx s _) (deliver _ _)

theorem trackFrame (s : State) (f : Frame) : s.RingSteps (s.trackFrame f) := by
  unfold State.trackFrame
  repeat' split
  · exact repeatHold s _
  · exact trans (endHold s _) (beginHold _ f)
  · exact beginHold s f

theorem trackMarker (s : State) (q : ProfileId) : s.RingSteps (s.trackMarker q) := by
  unfold State.trackMarker
  repeat' split
  · exact repeatHold s _
  all_goals exact refl s

theorem closeDecode (s : State) (d : Decoding) (pr : Profile) : s.RingSteps (s.closeDecode d pr) := by
  have idle : s.RingSteps (s.setDecoder .idle) := beside rfl rfl
  unfold State.closeDecode
  split
  · exact idle.trans (trackMarker _ _)
  · split
    · dsimp only
      split
      · exact failClose s _ _
      · exact idle.trans (trackFrame _ _)
    · exact failClose s _ _

theorem reevaluateListening (s : State) : s.RingSteps s.reevaluateListening := by
  rw [State.reevaluateListening_eq]
  exact beside rfl rfl

/-! ### Jobs and the arbiter -/

theorem arbiter (h : s.OnlyArbiter t) : s.RingSteps t := beside (by rw [h.rest]) (by rw [h.rest])

theorem endJob (s : State) (i : SlotId) (o : JobOutcome) : s.RingSteps (s.endJob i o) :=
  beside (by rw [(s.endJob_rest i o).1]) (by rw [(s.endJob_rest i o).1])

theorem frameStart (s : State) (i : SlotId) : s.RingSteps (s.frameStart i) :=
  beside (by rw [s.frameStart_rest i]) (by rw [s.frameStart_rest i])

theorem frameEnd (s : State) (i : SlotId) (form : Form) : s.RingSteps (s.frameEnd i form) := by
  unfold State.frameEnd
  split
  · exact refl s
  · rename_i j _
    have told : s.RingSteps (if form = .full then s.deliver j.localEvent else s) := by
      split
      · exact deliver s _
      · exact refl s
    refine told.trans ?_
    generalize (if form = .full then s.deliver j.localEvent else s) = s'
    dsimp only
    split
    · exact arbiter (.endSilently s' i)
    · refine trans (t := s'.modifyJob i Job.countSent) (beside rfl rfl) ?_
      split
      · exact endJob _ i _
      · exact arbiter (.enterGap _ i)

theorem collided (s : State) (i : SlotId) : s.RingSteps (s.collided i) := by
  unfold State.collided
  split
  · exact refl s
  · split
    · exact arbiter (.endSilently s i)
    · refine trans (t := s.modifyJob i Job.countCollision) (beside rfl rfl) ?_
      dsimp only
      split
      · exact endJob _ i _
      · exact arbiter (.enterBackoff _ i)

theorem mergeInto (s : State) (i : SlotId) (j : Job) (x : Submission) (pr : Profile) (tag : Byte) :
    s.RingSteps (s.mergeInto i j x pr tag) := by
  unfold State.mergeInto
  dsimp only
  split
  · split <;> exact beside rfl rfl
  · refine trans (t := (s.modifyJob i fun j => j.merge x pr tag).vacate i) (beside rfl rfl) ?_
    exact arbiter (.joinTail _ i)

theorem freeEntries (s : State) (p : Port) : s.RingSteps (s.freeEntries p) :=
  trans (t := { s with entries := s.entries.map fun x => x.filter fun e => e.owner != p }) (beside rfl rfl)
    (reevaluateListening _)

/-- R157: a ring goes, and the port's attention line follows. -/
theorem undefineRing (s : State) (p : Port) (f : HostPort → HostPort) :
    s.RingSteps (((s.replaceRing p none).modifyPort p f).attend p) :=
  trans (step (.placed p none nofun)) (beside rfl rfl)

/-- R173: the ring of the port goes with its session. -/
theorem closePort (s : State) (p : Port) (cut : Bool) : s.RingSteps (s.closePort p cut) := by
  obtain ⟨_, _, _, _, closed⟩ := State.closeJobs_rest p cut s
  have jobs : s.RingSteps (s.closeJobs p cut) := beside (by rw [closed]) (by rw [closed])
  exact jobs.trans (trans (freeEntries _ p) (undefineRing _ p HostPort.closed))

end State.RingSteps

/-! ### Requests -/

section
variable {s t : State}

/-- R165: taking a request does what the block's handler does; the answer is beside. -/
theorem State.takeRequest_ringSteps {k : RequestKind} {p : Port} {h : Request → State → Reply}
    (handler : ∀ r, s.RingSteps (h r s).state) (ht : s.takeRequest k p h = .next t) : s.RingSteps t := by
  obtain none_pending | ⟨r, _, _, answered⟩ := s.takeRequest_cases k p h
  · cases none_pending.symm.trans ht
    exact .refl s
  · cases answered.symm.trans ht
    exact (handler r).trans (.beside rfl rfl)

variable (s) (p : Port) (r : Request)

theorem profileSetReply_ringSteps : s.RingSteps (profileSetReply r s).state := by
  unfold profileSetReply profileDefineReply
  repeat' split
  all_goals exact .beside rfl rfl

theorem submitReply_ringSteps : s.RingSteps (submitReply p r s).state := by
  unfold submitReply State.decideSubmit
  repeat' split
  · exact .refl s
  · exact .refl s
  · exact .mergeInto s _ _ _ _ _
  · exact .refl s
  · exact .refl s
  · exact .trans (.beside (s := s) (t := s.fillSlot _ _) rfl rfl) (.arbiter (.joinTail _ _))
  · exact .refl s

/-- R42: a request with a handle does what its effect on the job it names does. -/
theorem State.withHandle_ringSteps {body : List Byte} {f : SlotId → Job → Reply}
    (hf : ∀ i j, s.RingSteps (f i j).state) : s.RingSteps (s.withHandle p body f).state := by
  unfold State.withHandle
  repeat' split
  · exact .refl s
  · exact hf _ _
  · exact .refl s

theorem keepReply_ringSteps : s.RingSteps (keepReply p r s).state := by
  refine s.withHandle_ringSteps p fun i j => ?_
  repeat' split
  all_goals exact .beside rfl rfl

theorem releaseReply_ringSteps : s.RingSteps (releaseReply p r s).state := by
  refine s.withHandle_ringSteps p fun i j => ?_
  repeat' split
  · exact .refl s
  · exact .beside rfl rfl
  · exact .beside rfl rfl
  · exact .endJob s i _

theorem cancelReply_ringSteps : s.RingSteps (cancelReply p r s).state := by
  refine s.withHandle_ringSteps p fun i j => ?_
  split
  · exact .beside rfl rfl
  · exact .endJob s i _

theorem State.changeEntry_ringSteps (e : EntryId) (x : Option Entry) : s.RingSteps (s.changeEntry e x) :=
  .trans (t := s.setEntry e x) (.beside rfl rfl) (.reevaluateListening _)

theorem subscribeReply_ringSteps : s.RingSteps (subscribeReply p r s).state := by
  unfold subscribeReply
  repeat' split
  · exact .refl s
  · exact .refl s
  · exact .refl s
  · exact s.changeEntry_ringSteps _ _

/-- R130: a request that names an entry does what its effect on that entry does. -/
theorem State.withEntry_ringSteps {body : List Byte} {f : EntryId → Entry → Reply}
    (hf : ∀ e x, s.RingSteps (f e x).state) : s.RingSteps (s.withEntry p body f).state := by
  unfold State.withEntry
  repeat' split
  · exact .refl s
  · exact hf _ _
  · exact .refl s

theorem subEnableReply_ringSteps : s.RingSteps (subEnableReply p r s).state := by
  refine s.withEntry_ringSteps p fun e x => ?_
  repeat' split
  · exact .refl s
  · exact .refl s
  · exact .refl s
  · exact s.changeEntry_ringSteps e _

variable {s p} in
/-- R144 to R148: a RING_SET that passes its checks asks for a ring that the port may have. -/
theorem RingRequest.admitted {x : RingRequest} (small : x.depth ≤ Config.maxDepth)
    (fits : ¬(1 ≤ x.depth ∧ Config.memSlots < x.base + x.depth))
    (apart : ¬(1 ≤ x.depth ∧ s.overlaps p x.base x.depth = true)) : s.admits p x.ring := by
  intro ring made
  unfold RingRequest.ring at made
  split at made
  · cases made
  · cases made
    have slots : 1 ≤ x.depth := by omega
    have inside : x.base + x.depth ≤ Config.memSlots := Nat.not_lt.1 fun past => fits ⟨slots, past⟩
    refine ⟨⟨slots, small, inside, slots, Nat.zero_le _, Nat.zero_le _, fun _ => rfl⟩, fun q r' other hr' => ?_⟩
    refine Bool.eq_false_iff.2 fun meets => apart ⟨slots, State.overlaps_iff.2 ⟨q, r', other, hr', ?_⟩⟩
    exact of_decide_eq_true meets

theorem ringSetReply_ringSteps : s.RingSteps (ringSetReply p r s).state := by
  unfold ringSetReply
  split
  · exact .refl s
  · rename_i x read
    obtain ⟨⟨_, small, _⟩, asked⟩ := ringRequestOfBody_eq_some.1 read
    have small : x.depth ≤ Config.maxDepth := asked ▸ small
    unfold State.placeRing
    repeat' split
    · exact .refl s
    · exact .refl s
    · exact .refl s
    · exact .step (.placed p _ (RingRequest.admitted small ‹_› ‹_›))

theorem ringReadReply_ringSteps : s.RingSteps (ringReadReply p r s).state := by
  unfold ringReadReply
  split
  · exact .refl s
  · exact .step (.read p _)

theorem openReply_ringSteps : s.RingSteps (openReply p r s).state := by
  unfold openReply
  split <;> exact .beside rfl rfl

theorem closeReply_ringSteps : s.RingSteps (closeReply p r s).state := by
  unfold closeReply
  split
  · exact .refl s
  · exact .closePort s p _

theorem setAttnReply_ringSteps : s.RingSteps (setAttnReply p r s).state := by
  unfold setAttnReply
  split <;> exact .beside rfl rfl

theorem noticeFetchReply_ringSteps : s.RingSteps (noticeFetchReply p r s).state := by
  unfold noticeFetchReply
  split <;> exact .beside rfl rfl

end

/-! ### Every command -/

section
variable {s t : State}

theorem execMillisecondTick_ringSteps (h : execMillisecondTick s = .next t) : s.RingSteps t := by
  obtain early | due := Nat.lt_or_ge s.tickCount 1000
  · rw [execMillisecondTick_early early] at h
    cases h
    exact .refl s
  · rw [execMillisecondTick_due due] at h
    have made := Host.Outcome.next.inj h
    subst made
    exact .beside rfl rfl

theorem execDetectMark_ringSteps (h : execDetectMark s = .next t) : s.RingSteps t := by
  unfold execDetectMark at h
  split at h <;> cases h
  · exact .refl s
  · exact .trans (t := s.turnToMark) (.beside rfl rfl) (.judgeAtMark _ _)

theorem execDetectSpace_ringSteps (h : execDetectSpace s = .next t) : s.RingSteps t := by
  unfold execDetectSpace at h
  split at h <;> cases h
  · exact .refl s
  · exact .trans (t := s.turnToSpace) (.beside rfl rfl) (.judgeAtSpace _ _)

theorem execMarkTooLong_ringSteps (h : execMarkTooLong s = .next t) : s.RingSteps t := by
  unfold execMarkTooLong at h
  split at h <;> cases h
  · exact .markTooLong s
  · exact .refl s

theorem execLeaderSpaceTooLong_ringSteps (h : execLeaderSpaceTooLong s = .next t) : s.RingSteps t := by
  unfold execLeaderSpaceTooLong at h
  repeat' split at h
  all_goals
    cases h
    exact .beside rfl rfl

theorem execEndGapReached_ringSteps (h : execEndGapReached s = .next t) : s.RingSteps t := by
  unfold execEndGapReached at h
  repeat' split at h
  all_goals cases h
  · exact .closeDecode s _ _
  all_goals exact .refl s

theorem execClosingGapReached_ringSteps (h : execClosingGapReached s = .next t) : s.RingSteps t := by
  unfold execClosingGapReached at h
  repeat' split at h
  all_goals
    cases h
    exact .beside rfl rfl

theorem execHoldWindowExpiry_ringSteps (h : execHoldWindowExpiry s = .next t) : s.RingSteps t := by
  unfold execHoldWindowExpiry at h
  repeat' split at h
  all_goals cases h
  · exact .endHold s _
  all_goals exact .refl s

theorem execGuardComplete_ringSteps (h : execGuardComplete s = .next t) : s.RingSteps t := by
  unfold execGuardComplete at h
  repeat' split at h
  all_goals cases h
  · exact .frameStart s _
  · exact .frameStart s _
  all_goals exact .refl s

theorem execRepeatPeriodExpiry_ringSteps (h : execRepeatPeriodExpiry s = .next t) : s.RingSteps t := by
  have period : s.RingSteps s.endPeriod := .beside rfl rfl
  unfold execRepeatPeriodExpiry at h
  repeat' split at h
  all_goals cases h
  · exact period.trans (.frameStart _ _)
  · exact period
  all_goals exact .refl s

theorem execDriveDone_ringSteps (h : execDriveDone s = .next t) : s.RingSteps t := by
  unfold execDriveDone at h
  repeat' split at h
  all_goals cases h
  · exact .trans (t := s.stopDrive) (.beside rfl rfl) (.frameEnd _ _ _)
  all_goals exact .refl s

theorem execCollision_ringSteps (h : execCollision s = .next t) : s.RingSteps t := by
  unfold execCollision at h
  repeat' split at h
  all_goals cases h
  · exact .trans (t := s.stopDrive) (.beside rfl rfl) (.collided _ _)
  all_goals exact .refl s

theorem execBackoffExpiry_ringSteps {i : SlotId} (h : execBackoffExpiry i s = .next t) : s.RingSteps t := by
  unfold execBackoffExpiry at h
  split at h <;> cases h
  · exact .trans (t := (s.vacate i).modifyJob i fun j => { j with backoffTimer := none }) (.beside rfl rfl)
      (.arbiter (.joinHead _ i))
  · exact .refl s

theorem execDeadlineExpiry_ringSteps {i : SlotId} (h : execDeadlineExpiry i s = .next t) : s.RingSteps t := by
  unfold execDeadlineExpiry at h
  split at h <;> cases h
  · exact .endJob s i _
  · exact .refl s

theorem execLeaseExpiry_ringSteps {i : SlotId} (h : execLeaseExpiry i s = .next t) : s.RingSteps t := by
  unfold execLeaseExpiry at h
  repeat' split at h
  all_goals cases h
  · exact .beside rfl rfl
  · exact .endJob s i _
  · exact .refl s

theorem execSelect_ringSteps {p : Port} (h : execSelect p s = .next t) : s.RingSteps t := by
  unfold execSelect at h
  split at h <;> cases h <;> exact .beside rfl rfl

theorem execDeselect_ringSteps {p : Port} (h : execDeselect p s = .next t) : s.RingSteps t := by
  unfold execDeselect at h
  split at h <;> cases h <;> exact .beside rfl rfl

/-- What every command does to the rings and to the frame memory. -/
theorem exec_ringSteps {c : Instr} (h : exec c s = .next t) : s.RingSteps t := by
  cases c with
  | fullReset straps => cases h; exact .step (.reset straps)
  | lineTick => cases h; exact .beside rfl rfl
  | millisecondTick => exact execMillisecondTick_ringSteps h
  | detectMark => exact execDetectMark_ringSteps h
  | detectSpace => exact execDetectSpace_ringSteps h
  | markTooLong => exact execMarkTooLong_ringSteps h
  | leaderSpaceTooLong => exact execLeaderSpaceTooLong_ringSteps h
  | endGapReached => exact execEndGapReached_ringSteps h
  | closingGapReached => exact execClosingGapReached_ringSteps h
  | holdWindowExpiry => exact execHoldWindowExpiry_ringSteps h
  | guardComplete => exact execGuardComplete_ringSteps h
  | repeatPeriodExpiry => exact execRepeatPeriodExpiry_ringSteps h
  | driveDone => exact execDriveDone_ringSteps h
  | collision => exact execCollision_ringSteps h
  | backoffExpiry i => exact execBackoffExpiry_ringSteps h
  | deadlineExpiry i => exact execDeadlineExpiry_ringSteps h
  | leaseExpiry i => exact execLeaseExpiry_ringSteps h
  | select p => exact execSelect_ringSteps h
  | deselect p => exact execDeselect_ringSteps h
  | serialClockEdge p edge => cases h; exact .beside rfl rfl
  | hello p => exact State.takeRequest_ringSteps (fun _ => .refl s) h
  | openSession p => exact State.takeRequest_ringSteps (openReply_ringSteps s p) h
  | closeSession p => exact State.takeRequest_ringSteps (closeReply_ringSteps s p) h
  | setAttn p => exact State.takeRequest_ringSteps (setAttnReply_ringSteps s p) h
  | noticeFetch p => exact State.takeRequest_ringSteps (noticeFetchReply_ringSteps s p) h
  | lineQuery p => exact State.takeRequest_ringSteps (fun _ => .refl s) h
  | profileSet p => exact State.takeRequest_ringSteps (profileSetReply_ringSteps s) h
  | profileGet p => exact State.takeRequest_ringSteps (fun r => by rw [profileGetReply_state]; exact .refl s) h
  | submit p => exact State.takeRequest_ringSteps (submitReply_ringSteps s p) h
  | keep p => exact State.takeRequest_ringSteps (keepReply_ringSteps s p) h
  | release p => exact State.takeRequest_ringSteps (releaseReply_ringSteps s p) h
  | cancel p => exact State.takeRequest_ringSteps (cancelReply_ringSteps s p) h
  | jobQuery p => exact State.takeRequest_ringSteps (fun _ => s.withHandle_ringSteps p fun _ _ => .refl s) h
  | subscribe p => exact State.takeRequest_ringSteps (subscribeReply_ringSteps s p) h
  | unsubscribe p =>
    exact State.takeRequest_ringSteps (fun _ => s.withEntry_ringSteps p fun e _ => s.changeEntry_ringSteps e none) h
  | subEnable p => exact State.takeRequest_ringSteps (subEnableReply_ringSteps s p) h
  | subList p => exact State.takeRequest_ringSteps (fun _ => .refl s) h
  | ringSet p => exact State.takeRequest_ringSteps (ringSetReply_ringSteps s p) h
  | ringRead p => exact State.takeRequest_ringSteps (ringReadReply_ringSteps s p) h
  | ringQuery p => exact State.takeRequest_ringSteps (fun _ => .refl s) h

/-- What every step does to them; the queue of waiting commands is beside. -/
theorem step_ringSteps (h : step s = .next t) : s.RingSteps t := by
  obtain rfl | ⟨c, rest, _, h⟩ := step_cases h
  · exact .refl _
  · exact .trans (t := { s with pending := rest }) (.beside rfl rfl) (exec_ringSteps h)

end

end Sys2Proof.Machine

section
open Sys2Proof Sys2Proof.Machine

/-- Settles O52: the frame memory changes by writes of a record, of a missed byte and of cleared slots alone. -/
theorem frameMemoryStaysCanonical : Obligations.FrameMemoryStaysCanonical :=
  fun _ _ wf h => (step_ringSteps h).keeps (law := fun s => Memory.wf s.mem = true) (fun _ _ change => change.wf) wf

/-- Settles O57: an offer and a read leave a ring in its slots, and RING_SET puts one where no other ring is. -/
theorem ringsStayApartAndInBounds : Obligations.RingsStayApartAndInBounds :=
  fun _ _ lawful h => (step_ringSteps h).keeps (fun _ _ change => change.ringsLawful) lawful

end
end

section
/-! PROOFS. The laws of the host ports (R161, R166, R168, R177, R181): what a command can do to the ports and to what
their attention lines follow, one `State.PortStep` after another, each of which keeps the three laws. -/

-- The proofs run one after another, for the memory limit of the check.
set_option Elab.async false

namespace Sys2Proof.Machine

/-! ### What the wires reach of a port -/

section
variable (h : HostPort)

/-- R161, R162, R166: all that a select touches. -/
theorem HostPort.select_rest : h.select = { h with
    selectLow := true, sdo := h.select.sdo, txn := h.select.txn, refused := h.select.refused, bitsIn := []
    received := [], out := h.select.out, outBit := 0 } := by
  unfold HostPort.select
  split <;> rfl

/-- R159, R163: all that an edge of SCKn touches. -/
theorem HostPort.clockEdge_rest (edge : Edge) : h.clockEdge edge = { h with
    clockHigh := (h.clockEdge edge).clockHigh, sdo := (h.clockEdge edge).sdo, bitsIn := (h.clockEdge edge).bitsIn
    received := (h.clockEdge edge).received, outBit := (h.clockEdge edge).outBit } := by
  cases edge with
  | rising sdi =>
    simp only [HostPort.clockEdge, HostPort.takeBit]
    repeat' split
    all_goals rfl
  | falling =>
    simp only [HostPort.clockEdge, HostPort.presentNext]
    repeat' split
    all_goals rfl

/-- R161, R164 to R167: all that the judgement of a transaction touches. -/
theorem HostPort.settle_rest : h.settle = { h.endTransaction with
    txn := h.settle.txn, request := h.settle.request, response := h.settle.response } := by
  unfold HostPort.settle
  split <;> rfl

/-- R161, R163, R166: all that a deselect touches. -/
theorem HostPort.deselect_rest : h.deselect = { h.endTransaction with
    txn := h.deselect.txn, request := h.deselect.request, response := h.deselect.response } := by
  unfold HostPort.deselect
  repeat' split
  · rfl
  · exact h.settle_rest
  all_goals rfl

end

/-! ### The laws of one port -/

/-- R161, R166: whether the port is EXECUTING, has a request pending, is in a refused transaction and has its select low
decides its law. -/
theorem HostPort.lawful.congr {h h' : HostPort} (lawful : h.lawful) (txn : h'.txn = h.txn)
    (request : h'.request = h.request) (refused : h'.refused = h.refused) (low : h'.selectLow = h.selectLow) :
    h'.lawful := by
  unfold HostPort.lawful HostPort.inTransaction at *
  rwa [txn, request, refused, low]

/-- R161, R166: a select begins a transaction where none is in progress. -/
theorem HostPort.lawful.select {h : HostPort} (lawful : h.lawful) (high : h.selectLow = false) : h.select.lawful := by
  obtain ⟨executing, low, _⟩ := lawful
  have outside : h.inTransaction = false := Bool.eq_false_iff.2 fun inside => by cases high.symm.trans (low inside)
  simp only [HostPort.inTransaction, Bool.or_eq_false_iff, beq_eq_false_iff_ne] at outside
  unfold HostPort.select
  split
  · rename_i txn
    exact ⟨executing, fun _ => rfl, fun both => by cases txn.symm.trans both.1⟩
  · rename_i txn
    have idle : h.request.isSome ≠ true := fun pending => by cases txn.symm.trans (executing.2 pending)
    exact ⟨⟨nofun, fun pending => absurd pending idle⟩, fun _ => rfl, fun both => by cases outside.2.symm.trans both.2⟩
  · rename_i txn
    exact absurd txn outside.1

/-- R161, R164, R165: the judgement leaves the port IDLE, or EXECUTING with the request it hands on. -/
theorem HostPort.lawful.settle {h : HostPort} (lawful : h.lawful) (selected : h.txn = .selected) :
    h.settle.lawful := by
  have idle : h.request.isSome ≠ true := fun pending => by cases selected.symm.trans (lawful.1.2 pending)
  unfold HostPort.settle
  split
  · exact ⟨⟨nofun, fun pending => absurd pending idle⟩, nofun, nofun⟩
  · exact ⟨⟨nofun, fun pending => absurd pending idle⟩, nofun, nofun⟩
  · exact ⟨⟨fun _ => rfl, fun _ => rfl⟩, nofun, nofun⟩

/-- R161, R166: a deselect ends the transaction. -/
theorem HostPort.lawful.deselect {h : HostPort} (lawful : h.lawful) : h.deselect.lawful := by
  have ended (outside : h.txn ≠ .selected) : h.endTransaction.lawful := by
    refine ⟨lawful.1, fun inside => absurd inside ?_, fun both => outside both.1⟩
    simp [HostPort.inTransaction, HostPort.endTransaction, outside]
  unfold HostPort.deselect
  split
  · rename_i refused
    exact ended fun selected => lawful.2.2 ⟨selected, refused⟩
  · split
    · exact lawful.settle ‹_›
    · exact ended fun selected => by cases selected.symm.trans ‹h.txn = .idle›
    · exact ended fun selected => by cases selected.symm.trans ‹h.txn = .executing›

theorem HostPort.lawful.clockEdge {h : HostPort} (lawful : h.lawful) (edge : Edge) : (h.clockEdge edge).lawful := by
  rw [h.clockEdge_rest edge]
  exact lawful.congr rfl rfl rfl rfl

/-- R165, R168: an answer leaves the port IDLE with nothing pending; the wires stay. -/
theorem HostPort.lawful.answer {h : HostPort} (lawful : h.lawful) (r : Request) (status : Status) (body : List Byte) :
    (h.answer r status body).lawful := by
  refine ⟨⟨nofun, nofun⟩, fun inside => lawful.2.1 ?_, nofun⟩
  have refused : h.refused = true := inside
  simp [HostPort.inTransaction, refused]

/-- R164, R168, R181: the deselect leaves the response, or puts a status alone in its place. -/
theorem HostPort.deselect_response (h : HostPort) (lawful : ∀ r ∈ h.response, r.lawful) :
    ∀ r ∈ h.deselect.response, r.lawful := by
  unfold HostPort.deselect
  repeat' split
  · exact lawful
  · unfold HostPort.settle
    split
    · exact lawful
    · rintro _ ⟨⟩
      exact ⟨Nat.zero_le _, fun _ _ => rfl⟩
    · exact lawful
  all_goals exact lawful

/-! ### What a command does to the ports -/

/-- h' has the wires, the transaction, the pending request and the response of h. -/
def HostPort.SameBus (h h' : HostPort) : Prop :=
  h' = { h with
    isOpen := h'.isOpen, epoch := h'.epoch, notices := h'.notices, threshold := h'.threshold, attn := h'.attn }

/-- h' has the session, the notices, the threshold and the attention line of h. -/
def HostPort.SameSignal (h h' : HostPort) : Prop :=
  h'.isOpen = h.isOpen ∧ h'.notices = h.notices ∧ h'.threshold = h.threshold ∧ h'.attn = h.attn

/-- The changes of the ports and the rings, and those beside them. A port's session, its notices, its threshold and its
ring change with a re-evaluation of its attention line (R177). -/
inductive State.PortStep (s : State) : State → Prop
  | beside (t : State) (rings : t.rings = s.rings) (ports : t.ports = s.ports) : s.PortStep t
  | attended (u : State) (p : Port) (rings : ∀ k ≠ p, u.ring k = s.ring k) (ports : ∀ k ≠ p, u.port k = s.port k)
      (bus : (s.port p).SameBus (u.port p)) : s.PortStep (u.attend p)
  | selected (p : Port) (high : (s.port p).selectLow = false) : s.PortStep (s.modifyPort p HostPort.select)
  | deselected (p : Port) : s.PortStep (s.modifyPort p HostPort.deselect)
  | clocked (p : Port) (edge : Edge) : s.PortStep (s.modifyPort p (·.clockEdge edge))
  | answered (p : Port) (r : Request) (status : Status) (body : List Byte)
      (lawful : Response.lawful { code := r.kind.code, tag := r.tag, status := status, body := body }) :
      s.PortStep (s.modifyPort p fun h => h.answer r status body)
  | reset (straps : BitVec 4) : s.PortStep
      { State.reset with stn := straps, ports := s.ports.map HostPort.fullReset, pending := s.pending }

section
variable {s t : State} {p : Port}

/-- R177: the law says of a port that has not changed, beside a ring that has not changed, what it said. -/
theorem State.attentionLawful.at_port (hs : s.attentionLawful) (ring : t.ring p = s.ring p)
    (same : (s.port p).SameSignal (t.port p)) : (t.port p).attn = t.attentionDue p := by
  obtain ⟨isOpen, notices, threshold, attn⟩ := same
  have law := hs p
  unfold State.attentionDue State.ringCount at *
  rw [attn, isOpen, notices, threshold, ring, law]

theorem State.attentionLawful.modifyPort (hs : s.attentionLawful) {f : HostPort → HostPort}
    (same : (s.port p).SameSignal (f (s.port p))) : (s.modifyPort p f).attentionLawful := fun k => by
  refine hs.at_port rfl ?_
  rw [State.modifyPort_port]
  split
  · subst k; exact same
  · exact ⟨rfl, rfl, rfl, rfl⟩

/-- R180: a port after a full reset. -/
theorem State.fullReset_port (straps : BitVec 4) (s : State) (p : Port) :
    State.port { State.reset with stn := straps, ports := s.ports.map HostPort.fullReset, pending := s.pending } p =
      (s.port p).fullReset := by simp [State.port]

/-- R177: each change keeps ATTNn at the level of its condition. -/
theorem State.PortStep.attentionLawful (h : s.PortStep t) (hs : s.attentionLawful) : t.attentionLawful := by
  cases h with
  | beside t rings ports =>
    intro p
    refine hs.at_port (by rw [State.ring, State.ring, rings]) ?_
    rw [State.port, State.port, ports]
    exact ⟨rfl, rfl, rfl, rfl⟩
  | attended u p rings ports bus =>
    intro k
    by_cases hk : k = p
    · subst k
      exact u.attend_lawful p
    · refine hs.at_port (rings k hk) ?_
      rw [State.attend_port, if_neg hk, ports k hk]
      exact ⟨rfl, rfl, rfl, rfl⟩
  | selected p _ => exact hs.modifyPort (by rw [HostPort.select_rest]; exact ⟨rfl, rfl, rfl, rfl⟩)
  | deselected p => exact hs.modifyPort (by rw [HostPort.deselect_rest]; exact ⟨rfl, rfl, rfl, rfl⟩)
  | clocked p edge => exact hs.modifyPort (by rw [HostPort.clockEdge_rest]; exact ⟨rfl, rfl, rfl, rfl⟩)
  | answered p r status body _ => exact hs.modifyPort ⟨rfl, rfl, rfl, rfl⟩
  | reset straps =>
    intro p
    rw [State.attentionDue, State.fullReset_port]
    rfl

/-- R161, R166, R168, R181: a law of each port's transaction, request and response, where a change keeps it at the port
that it touches. -/
theorem State.PortStep.each_port {law : HostPort → Prop} (h : s.PortStep t) (hs : ∀ p, law (s.port p))
    (bus : ∀ {h h' : HostPort}, h.SameBus h' → law h → law h')
    (select : ∀ {h : HostPort}, h.selectLow = false → law h → law h.select)
    (deselect : ∀ {h : HostPort}, law h → law h.deselect)
    (clock : ∀ {h : HostPort} (edge : Edge), law h → law (h.clockEdge edge))
    (answer : ∀ {h : HostPort} (r : Request) (status : Status) (body : List Byte),
      Response.lawful { code := r.kind.code, tag := r.tag, status := status, body := body } → law h →
        law (h.answer r status body))
    (reset : ∀ h : HostPort, law h.fullReset) : ∀ p, law (t.port p) := by
  have at_port {p : Port} {f : HostPort → HostPort} (here : law (f (s.port p))) (k : Port) :
      law ((s.modifyPort p f).port k) := by
    rw [State.modifyPort_port]
    split
    · exact here
    · exact hs k
  cases h with
  | beside t rings ports => exact fun p => by rw [State.port, ports]; exact hs p
  | attended u p rings ports same =>
    intro k
    rw [State.attend_port]
    split
    · have attended : (u.port p).SameBus { u.port p with attn := u.attentionDue p } := rfl
      exact bus attended (bus same (hs p))
    · rw [ports k ‹_›]
      exact hs k
  | selected p high => exact at_port (select high (hs p))
  | deselected p => exact at_port (deselect (hs p))
  | clocked p edge => exact at_port (clock edge (hs p))
  | answered p r status body lawful => exact at_port (answer r status body lawful (hs p))
  | reset straps =>
    intro p
    rw [State.fullReset_port]
    exact reset _

/-- R161, R166: each change keeps the transactions. -/
theorem State.PortStep.portsLawful (h : s.PortStep t) (hs : s.portsLawful) : t.portsLawful :=
  h.each_port hs (fun same lawful => by rw [same]; exact lawful.congr rfl rfl rfl rfl)
    (fun high lawful => lawful.select high) (fun lawful => lawful.deselect) (fun edge lawful => lawful.clockEdge edge)
    (fun r status body _ lawful => lawful.answer r status body)
    fun _ => ⟨⟨nofun, nofun⟩, nofun, nofun⟩

/-- R168, R181: each change keeps the responses. -/
theorem State.PortStep.responsesLawful (h : s.PortStep t) (hs : s.responsesLawful) : t.responsesLawful :=
  h.each_port (law := fun h => ∀ r ∈ h.response, r.lawful) hs (fun same lawful => by rw [same]; exact lawful)
    (fun _ lawful => by rw [HostPort.select_rest]; exact lawful) (fun lawful => HostPort.deselect_response _ lawful)
    (fun edge lawful => by rw [HostPort.clockEdge_rest]; exact lawful)
    (fun r status body lawful _ => by rintro _ ⟨⟩; exact lawful) fun _ => nofun

/-- What a command does to the ports: such changes, one after another. -/
def State.PortSteps : State → State → Prop := Relation.ReflTransGen State.PortStep

end
end Sys2Proof.Machine
end

section
/-! PROOFS. Every command changes the ports by `State.PortStep` alone: delivery and the receiver, jobs, requests with
their responses (R168, R181), and the wires. -/

-- The proofs run one after another, for the memory limit of the check.
set_option Elab.async false

namespace Sys2Proof.Machine

namespace State.PortSteps
variable {s t u : State}

theorem refl (s : State) : s.PortSteps s := Relation.ReflTransGen.refl

theorem trans (h : s.PortSteps t) (h' : t.PortSteps u) : s.PortSteps u := Relation.ReflTransGen.trans h h'

theorem step (h : s.PortStep t) : s.PortSteps t := Relation.ReflTransGen.single h

theorem beside (rings : t.rings = s.rings) (ports : t.ports = s.ports) : s.PortSteps t := step (.beside t rings ports)

/-- A law that each change keeps is kept by all of them together. -/
theorem keeps {law : State → Prop} (step : ∀ s t, s.PortStep t → law s → law t) (h : s.PortSteps t) (hs : law s) :
    law t := by
  induction h with
  | refl => exact hs
  | tail _ change ih => exact step _ _ change ih

/-- R177: a change of a port's session, notices or threshold, with its re-evaluation. -/
theorem attendPort (s : State) (p : Port) {f : HostPort → HostPort}
    (bus : (s.port p).SameBus (f (s.port p))) : s.PortSteps ((s.modifyPort p f).attend p) :=
  step (.attended _ p (fun _ _ => rfl) (fun k hk => s.modifyPort_port_ne p k f hk) (by rwa [State.modifyPort_port_self]))

/-- R177: a change of a port's ring, with its re-evaluation. -/
theorem attendRing (s : State) (p : Port) (r : Option Ring) (m : List Host.Cell) :
    s.PortSteps ((({ s with mem := m } : State).setRing p r).attend p) :=
  step (.attended _ p (fun k hk => State.setRing_ring_ne _ p k r hk) (fun _ _ => rfl) rfl)

/-! ### Delivery and the receiver -/

theorem offer (s : State) (p : Port) (e : Event) (seq : BitVec 16) : s.PortSteps (s.offer p e seq) := by
  unfold State.offer
  split
  · exact refl s
  · exact attendRing s p _ _

/-- R134: the delivery unit takes an event, port by port. -/
theorem deliver (s : State) (e : Event) : s.PortSteps (s.deliver e) := by
  unfold State.deliver
  generalize allPorts = ps
  induction ps generalizing s with
  | nil => exact refl s
  | cons p ps ih =>
    refine trans ?_ (ih _)
    unfold State.deliverTo
    split
    · exact trans (t := { s with seqs := s.seqs.set p (s.seqs[p] + 1) }) (beside rfl rfl) (offer _ p e _)
    · exact refl s

theorem rx (s : State) (r : Receiver) : s.PortSteps { s with rx := r } := beside rfl rfl

theorem failDecode (s : State) (q : ProfileId) (pr : Profile) (k : ErrorKind) : s.PortSteps (s.failDecode q pr k) :=
  trans (rx s _) (deliver _ _)

theorem failClose (s : State) (q : ProfileId) (k : ErrorKind) : s.PortSteps (s.failClose q k) :=
  trans (rx s _) (deliver _ _)

theorem repeatHold (s : State) (h : Hold) : s.PortSteps (s.repeatHold h) := trans (rx s _) (deliver _ _)

theorem beginHold (s : State) (f : Frame) : s.PortSteps (s.beginHold f) := trans (rx s _) (deliver _ _)

theorem endHold (s : State) (h : Hold) : s.PortSteps (s.endHold h) := trans (rx s _) (deliver _ _)

theorem applyJudgement (s : State) (q : ProfileId) (pr : Profile) (j : Judgement) :
    s.PortSteps (s.applyJudgement q pr j) := by
  cases j with
  | going d => exact beside rfl rfl
  | failed k => exact failDecode s q pr k

theorem judgeLeaderSpace (s : State) (qs : List ProfileId) (d : Nat) : s.PortSteps (s.judgeLeaderSpace qs d) := by
  unfold State.judgeLeaderSpace
  repeat' split
  all_goals exact beside rfl rfl

theorem judgeAtMark (s : State) (space : Nat) : s.PortSteps (s.judgeAtMark space) := by
  unfold State.judgeAtMark
  repeat' split
  · exact beside rfl rfl
  · exact beside rfl rfl
  · exact judgeLeaderSpace s _ _
  · exact applyJudgement s _ _ _
  all_goals exact refl s

theorem judgeAtSpace (s : State) (mark : Nat) : s.PortSteps (s.judgeAtSpace mark) := by
  unfold State.judgeAtSpace State.judgeLeaderMark
  repeat' split
  · exact beside rfl rfl
  · exact beside rfl rfl
  · exact applyJudgement s _ _ _
  all_goals exact refl s

theorem markTooLong (s : State) : s.PortSteps (s.markTooLong.getD s) := by
  unfold State.markTooLong
  repeat' split
  · exact beside rfl rfl
  · exact refl s
  · exact failDecode s _ _ _
  all_goals exact refl s

theorem trackFrame (s : State) (f : Frame) : s.PortSteps (s.trackFrame f) := by
  unfold State.trackFrame
  repeat' split
  · exact repeatHold s _
  · exact trans (endHold s _) (beginHold _ f)
  · exact beginHold s f

theorem trackMarker (s : State) (q : ProfileId) : s.PortSteps (s.trackMarker q) := by
  unfold State.trackMarker
  repeat' split
  · exact repeatHold s _
  all_goals exact refl s

theorem closeDecode (s : State) (d : Decoding) (pr : Profile) : s.PortSteps (s.closeDecode d pr) := by
  have idle : s.PortSteps (s.setDecoder .idle) := beside rfl rfl
  unfold State.closeDecode
  split
  · exact idle.trans (trackMarker _ _)
  · split
    · dsimp only
      split
      · exact failClose s _ _
      · exact idle.trans (trackFrame _ _)
    · exact failClose s _ _

theorem reevaluateListening (s : State) : s.PortSteps s.reevaluateListening := by
  rw [State.reevaluateListening_eq]
  exact beside rfl rfl

/-! ### Jobs and the arbiter -/

theorem arbiter (h : s.OnlyArbiter t) : s.PortSteps t := beside (by rw [h.rest]) (by rw [h.rest])

theorem frameStart (s : State) (i : SlotId) : s.PortSteps (s.frameStart i) :=
  beside (by rw [s.frameStart_rest i]) (by rw [s.frameStart_rest i])

/-- R88, R102: the end of a job, with the notice of it. -/
theorem endJob (s : State) (i : SlotId) (o : JobOutcome) : s.PortSteps (s.endJob i o) := by
  refine trans (t := s.notify i o) ?_ (arbiter (.endSilently _ i))
  unfold State.notify
  repeat' split
  · exact attendPort s _ rfl
  all_goals exact refl s

theorem frameEnd (s : State) (i : SlotId) (form : Form) : s.PortSteps (s.frameEnd i form) := by
  unfold State.frameEnd
  split
  · exact refl s
  · rename_i j _
    have told : s.PortSteps (if form = .full then s.deliver j.localEvent else s) := by
      split
      · exact deliver s _
      · exact refl s
    refine told.trans ?_
    generalize (if form = .full then s.deliver j.localEvent else s) = s'
    dsimp only
    split
    · exact arbiter (.endSilently s' i)
    · refine trans (t := s'.modifyJob i Job.countSent) (beside rfl rfl) ?_
      split
      · exact endJob _ i _
      · exact arbiter (.enterGap _ i)

theorem collided (s : State) (i : SlotId) : s.PortSteps (s.collided i) := by
  unfold State.collided
  split
  · exact refl s
  · split
    · exact arbiter (.endSilently s i)
    · refine trans (t := s.modifyJob i Job.countCollision) (beside rfl rfl) ?_
      dsimp only
      split
      · exact endJob _ i _
      · exact arbiter (.enterBackoff _ i)

theorem mergeInto (s : State) (i : SlotId) (j : Job) (x : Submission) (pr : Profile) (tag : Byte) :
    s.PortSteps (s.mergeInto i j x pr tag) := by
  unfold State.mergeInto
  dsimp only
  repeat' split
  · exact beside rfl rfl
  · exact beside rfl rfl
  · exact trans (t := (s.modifyJob i fun j => j.merge x pr tag).vacate i) (beside rfl rfl) (arbiter (.joinTail _ i))

/-! ### Sessions, entries and rings -/

theorem changeEntry (s : State) (e : EntryId) (x : Option Entry) : s.PortSteps (s.changeEntry e x) :=
  trans (t := s.setEntry e x) (beside rfl rfl) (reevaluateListening _)

theorem openPort (s : State) (p : Port) : s.PortSteps (s.openPort p) :=
  trans (attendPort s p (f := HostPort.opened) rfl) (beside rfl rfl)

theorem replaceRing (s : State) (p : Port) (r : Option Ring) : s.PortSteps (s.replaceRing p r) := attendRing s p r _

/-- R173: a CLOSE takes the jobs, the entries, the ring and the session, in this order. -/
theorem closePort (s : State) (p : Port) (cut : Bool) : s.PortSteps (s.closePort p cut) := by
  obtain ⟨_, _, _, _, closed⟩ := State.closeJobs_rest p cut s
  have jobs : s.PortSteps (s.closeJobs p cut) := beside (by rw [closed]) (by rw [closed])
  have entries (u : State) : u.PortSteps (u.freeEntries p) :=
    trans (t := { u with entries := u.entries.map fun x => x.filter fun e => e.owner != p }) (beside rfl rfl)
      (reevaluateListening _)
  have session (u : State) : u.PortSteps ((u.modifyPort p HostPort.closed).attend p) := attendPort u p rfl
  exact jobs.trans ((entries _).trans ((replaceRing _ p none).trans (session _)))

end State.PortSteps

/-! ### Requests and their responses -/

/-- R168, R181: a block's reply to a request changes the ports by such changes, and its result body fits its status and
its length. -/
structure Reply.Sound (x : Reply) (s : State) : Prop where
  steps : s.PortSteps x.state
  short : x.body.length ≤ 67
  bare  : x.status ≠ .ok → x.status ≠ .merged → x.body = []

namespace Reply.Sound
variable {s t : State}

/-- A status alone. -/
theorem bodiless {status : Status} (steps : s.PortSteps t) : Reply.Sound { status, body := [], state := t } s :=
  ⟨steps, Nat.zero_le _, fun _ _ => rfl⟩

theorem refuse (s : State) (status : Status) : (Reply.refuse s status).Sound s := bodiless (.refl s)

/-- OK with a result body. -/
theorem ok {body : List Byte} (steps : s.PortSteps t) (short : body.length ≤ 67) :
    Reply.Sound { status := .ok, body, state := t } s := ⟨steps, short, fun h => absurd rfl h⟩

theorem merged {body : List Byte} (steps : s.PortSteps t) (short : body.length ≤ 67) :
    Reply.Sound { status := .merged, body, state := t } s := ⟨steps, short, fun _ h => absurd rfl h⟩

end Reply.Sound

/-- R165, R168: taking a request does what the block's handler does, and answers it. -/
theorem State.takeRequest_portSteps {s t : State} {k : RequestKind} {p : Port} {handler : Request → State → Reply}
    (sound : ∀ r, (handler r s).Sound s) (ht : s.takeRequest k p handler = .next t) : s.PortSteps t := by
  obtain none_pending | ⟨r, _, _, answered⟩ := s.takeRequest_cases k p handler
  · cases none_pending.symm.trans ht
    exact .refl s
  · cases answered.symm.trans ht
    obtain ⟨steps, short, bare⟩ := sound r
    exact steps.trans (.step (.answered p r _ _ ⟨short, bare⟩))

/-! ### The lengths of result bodies (R184) -/

@[simp] theorem padTo_length (n : Nat) (bs : List Byte) : (padTo n bs).length = n := by simp [padTo]

@[simp] theorem le16_length (n : Nat) : (le16 n).length = 2 := rfl

theorem State.jobBody_length (s : State) (i : SlotId) (j : Job) : (s.jobBody i j).length = 32 := by
  simp [State.jobBody]

theorem State.profileBody_length (s : State) (q : ProfileId) : (s.profileBody q).length = 25 := by
  simp [State.profileBody, profileFields_length]

theorem State.lineBody_length (s : State) : s.lineBody.length = 19 := by
  have position : s.positionBytes.length = 6 := by
    unfold State.positionBytes
    dsimp only
    split <;> rfl
  simp [State.lineBody, position, allClasses]

theorem State.ringBody_length (s : State) (p : Port) : (s.ringBody p).length = 19 := by
  have fields (x : Option Ring) : (ringFields x).length = 7 := by cases x <;> rfl
  have triple (x : Option Ring) : (ringTriple x).length = 3 := by cases x <;> rfl
  simp [State.ringBody_eq, fields, triple]

/-- R127, R133: a port has at most 16 entries, of 4 bytes each. -/
theorem State.entryListBody_length (s : State) (p : Port) : (s.entryListBody p).length ≤ 65 := by
  have entries : (s.entriesOf p).length ≤ 16 := by
    have listed : (s.entriesOf p).length ≤ allEntries.length := List.length_filterMap_le _ _
    simpa [allEntries] using listed
  have bytes (x : EntryId × Entry) : (s.entryBytes x.1 x.2).length = 4 := rfl
  simp only [State.entryListBody, List.length_append, List.length_singleton, List.length_flatMap, bytes,
    List.map_const', List.sum_replicate, smul_eq_mul]
  omega

theorem readCountOfBody_le {body : List Byte} {n : Nat} (read : readCountOfBody body = some n) : n ≤ 4 := by
  obtain ⟨⟨_, most⟩, rfl⟩ := (inRange_reads _ _ _ _).1 read
  exact most

/-- R103, R185: at most n notices, of 10 bytes each. -/
theorem fetchBody_length (held : List Notice) (n : Nat) : (fetchBody held n).length ≤ 2 + 10 * n := by
  have bytes (x : Notice) : x.record.length = 10 := rfl
  simp only [fetchBody, List.length_append, List.length_cons, List.length_nil, List.length_flatMap, bytes,
    List.map_const', List.sum_replicate, smul_eq_mul, List.length_take]
  omega

/-- R154, R186: n records, of 16 bytes each. -/
theorem Ring.takeOldest_length (r : Ring) (m : List Host.Cell) (n : Nat) : (r.takeOldest m n).1.length = 16 * n := by
  induction n generalizing r m with
  | zero => rfl
  | succ n ih =>
    have first : (r.takeOldest m (n + 1)).1 = Memory.readSlot (r.slotAt 0) m ++
        ((r.removeOldest m).1.takeOldest (r.removeOldest m).2 n).1 := rfl
    rw [first, List.length_append, Memory.readSlot_length, ih]
    omega

/-! ### The handlers -/

section
variable (s : State) (p : Port) (r : Request)

theorem openReply_sound : (openReply p r s).Sound s := by
  unfold openReply
  split
  · exact .refuse s _
  · exact .ok (.openPort s p) (by simp)

theorem closeReply_sound : (closeReply p r s).Sound s := by
  unfold closeReply
  split
  · exact .refuse s _
  · exact .ok (.closePort s p _) (by simp [State.closeBody])

theorem setAttnReply_sound : (setAttnReply p r s).Sound s := by
  unfold setAttnReply
  split
  · exact .refuse s _
  · exact .ok (.attendPort s p rfl) (by simp)

theorem noticeFetchReply_sound : (noticeFetchReply p r s).Sound s := by
  unfold noticeFetchReply
  split
  · exact .refuse s _
  · have count := readCountOfBody_le ‹_›
    have length := fetchBody_length (s.port p).notices ‹Nat›
    exact .ok (.attendPort s p rfl) (by omega)

theorem profileSetReply_sound : (profileSetReply r s).Sound s := by
  unfold profileSetReply profileDefineReply
  repeat' split
  all_goals exact .bodiless (.beside rfl rfl)

theorem profileGetReply_sound : (profileGetReply r s).Sound s := by
  unfold profileGetReply
  split
  · exact .refuse s _
  · exact .ok (.refl s) (by simp [State.profileBody_length])

theorem submitReply_sound : (submitReply p r s).Sound s := by
  unfold submitReply State.decideSubmit
  repeat' split
  · exact .refuse s _
  · exact .refuse s _
  · exact .merged (.mergeInto s _ _ _ _ _) (by simp [handleBody])
  · exact .refuse s _
  · exact .refuse s _
  · exact .ok (.trans (.beside (s := s) (t := s.fillSlot _ _) rfl rfl) (.arbiter (.joinTail _ _))) (by simp [handleBody])
  · exact .refuse s _

/-- R42: a request with a handle is answered soundly when its effect on the job it names is. -/
theorem State.withHandle_sound {body : List Byte} {f : SlotId → Job → Reply} (hf : ∀ i j, (f i j).Sound s) :
    (s.withHandle p body f).Sound s := by
  unfold State.withHandle
  repeat' split
  · exact .refuse s _
  · exact hf _ _
  · exact .refuse s _

theorem keepReply_sound : (keepReply p r s).Sound s := by
  refine s.withHandle_sound p fun i j => ?_
  repeat' split
  all_goals exact .bodiless (.beside rfl rfl)

theorem releaseReply_sound : (releaseReply p r s).Sound s := by
  refine s.withHandle_sound p fun i j => ?_
  repeat' split
  · exact .refuse s _
  · exact .bodiless (.beside rfl rfl)
  · exact .bodiless (.beside rfl rfl)
  · exact .bodiless (.endJob s i _)

theorem cancelReply_sound : (cancelReply p r s).Sound s := by
  refine s.withHandle_sound p fun i j => ?_
  split
  · exact .bodiless (.beside rfl rfl)
  · exact .bodiless (.endJob s i _)

theorem jobQueryReply_sound : (jobQueryReply p r s).Sound s :=
  s.withHandle_sound p fun i j => .ok (.refl s) (by simp [State.jobBody_length])

theorem subscribeReply_sound : (subscribeReply p r s).Sound s := by
  unfold subscribeReply
  repeat' split
  · exact .refuse s _
  · exact .refuse s _
  · exact .refuse s _
  · exact .ok (.changeEntry s _ _) (by simp)

/-- R130: a request that names an entry is answered soundly when its effect on that entry is. -/
theorem State.withEntry_sound {body : List Byte} {f : EntryId → Entry → Reply} (hf : ∀ e x, (f e x).Sound s) :
    (s.withEntry p body f).Sound s := by
  unfold State.withEntry
  repeat' split
  · exact .refuse s _
  · exact hf _ _
  · exact .refuse s _

theorem unsubscribeReply_sound : (unsubscribeReply p r s).Sound s :=
  s.withEntry_sound p fun e _ => .bodiless (.changeEntry s e none)

theorem subEnableReply_sound : (subEnableReply p r s).Sound s := by
  refine s.withEntry_sound p fun e x => ?_
  repeat' split
  · exact .refuse s _
  · exact .bodiless (.refl s)
  · exact .refuse s _
  · exact .bodiless (.changeEntry s e _)

theorem ringSetReply_sound : (ringSetReply p r s).Sound s := by
  unfold ringSetReply State.placeRing
  repeat' split
  · exact .refuse s _
  · exact .refuse s _
  · exact .refuse s _
  · exact .refuse s _
  · exact .bodiless (.replaceRing s p _)

theorem ringReadReply_sound : (ringReadReply p r s).Sound s := by
  unfold ringReadReply State.readRing
  repeat' split
  · exact .refuse s _
  · exact .ok (.refl s) (by simp)
  · have count := readCountOfBody_le ‹_›
    refine .ok (.attendRing s p _ _) ?_
    simp only [List.length_append, List.length_cons, List.length_nil, Ring.takeOldest_length]
    omega

end

/-! ### Every command -/

section
variable {s t : State}

theorem execMillisecondTick_portSteps (h : execMillisecondTick s = .next t) : s.PortSteps t := by
  obtain early | due := Nat.lt_or_ge s.tickCount 1000
  · cases (execMillisecondTick_early early).symm.trans h
    exact .refl s
  · rw [execMillisecondTick_due due] at h
    have made := Host.Outcome.next.inj h
    subst made
    exact .beside rfl rfl

theorem execDetectMark_portSteps (h : execDetectMark s = .next t) : s.PortSteps t := by
  unfold execDetectMark at h
  split at h <;> cases h
  · exact .refl s
  · exact .trans (t := s.turnToMark) (.beside rfl rfl) (.judgeAtMark _ _)

theorem execDetectSpace_portSteps (h : execDetectSpace s = .next t) : s.PortSteps t := by
  unfold execDetectSpace at h
  split at h <;> cases h
  · exact .refl s
  · exact .trans (t := s.turnToSpace) (.beside rfl rfl) (.judgeAtSpace _ _)

theorem execMarkTooLong_portSteps (h : execMarkTooLong s = .next t) : s.PortSteps t := by
  unfold execMarkTooLong at h
  split at h <;> cases h
  · exact .markTooLong s
  · exact .refl s

theorem execLeaderSpaceTooLong_portSteps (h : execLeaderSpaceTooLong s = .next t) : s.PortSteps t := by
  unfold execLeaderSpaceTooLong at h
  repeat' split at h
  all_goals
    cases h
    exact .beside rfl rfl

theorem execEndGapReached_portSteps (h : execEndGapReached s = .next t) : s.PortSteps t := by
  unfold execEndGapReached at h
  repeat' split at h
  all_goals cases h
  · exact .closeDecode s _ _
  all_goals exact .refl s

theorem execClosingGapReached_portSteps (h : execClosingGapReached s = .next t) : s.PortSteps t := by
  unfold execClosingGapReached at h
  repeat' split at h
  all_goals
    cases h
    exact .beside rfl rfl

theorem execHoldWindowExpiry_portSteps (h : execHoldWindowExpiry s = .next t) : s.PortSteps t := by
  unfold execHoldWindowExpiry at h
  repeat' split at h
  all_goals cases h
  · exact .endHold s _
  all_goals exact .refl s

theorem execGuardComplete_portSteps (h : execGuardComplete s = .next t) : s.PortSteps t := by
  unfold execGuardComplete at h
  repeat' split at h
  all_goals cases h
  · exact .frameStart s _
  · exact .frameStart s _
  all_goals exact .refl s

theorem execRepeatPeriodExpiry_portSteps (h : execRepeatPeriodExpiry s = .next t) : s.PortSteps t := by
  have period : s.PortSteps s.endPeriod := .beside rfl rfl
  unfold execRepeatPeriodExpiry at h
  repeat' split at h
  all_goals cases h
  · exact period.trans (.frameStart _ _)
  · exact period
  all_goals exact .refl s

theorem execDriveDone_portSteps (h : execDriveDone s = .next t) : s.PortSteps t := by
  unfold execDriveDone at h
  repeat' split at h
  all_goals cases h
  · exact .trans (t := s.stopDrive) (.beside rfl rfl) (.frameEnd _ _ _)
  all_goals exact .refl s

theorem execCollision_portSteps (h : execCollision s = .next t) : s.PortSteps t := by
  unfold execCollision at h
  repeat' split at h
  all_goals cases h
  · exact .trans (t := s.stopDrive) (.beside rfl rfl) (.collided _ _)
  all_goals exact .refl s

theorem execBackoffExpiry_portSteps {i : SlotId} (h : execBackoffExpiry i s = .next t) : s.PortSteps t := by
  unfold execBackoffExpiry at h
  split at h <;> cases h
  · exact .trans (t := (s.vacate i).modifyJob i fun j => { j with backoffTimer := none }) (.beside rfl rfl)
      (.arbiter (.joinHead _ i))
  · exact .refl s

theorem execDeadlineExpiry_portSteps {i : SlotId} (h : execDeadlineExpiry i s = .next t) : s.PortSteps t := by
  unfold execDeadlineExpiry at h
  split at h <;> cases h
  · exact .endJob s i _
  · exact .refl s

theorem execLeaseExpiry_portSteps {i : SlotId} (h : execLeaseExpiry i s = .next t) : s.PortSteps t := by
  unfold execLeaseExpiry at h
  repeat' split at h
  all_goals cases h
  · exact .beside rfl rfl
  · exact .endJob s i _
  · exact .refl s

theorem execSelect_portSteps {p : Port} (h : execSelect p s = .next t) : s.PortSteps t := by
  unfold execSelect at h
  split at h <;> cases h
  · exact .refl s
  · exact .step (.selected p (Bool.eq_false_iff.2 ‹_›))

theorem execDeselect_portSteps {p : Port} (h : execDeselect p s = .next t) : s.PortSteps t := by
  unfold execDeselect at h
  split at h <;> cases h
  · exact .step (.deselected p)
  · exact .refl s

/-- What every command does to the ports. -/
theorem exec_portSteps {c : Instr} (h : exec c s = .next t) : s.PortSteps t := by
  cases c with
  | fullReset straps => cases h; exact .step (.reset straps)
  | lineTick => cases h; exact .beside rfl rfl
  | millisecondTick => exact execMillisecondTick_portSteps h
  | detectMark => exact execDetectMark_portSteps h
  | detectSpace => exact execDetectSpace_portSteps h
  | markTooLong => exact execMarkTooLong_portSteps h
  | leaderSpaceTooLong => exact execLeaderSpaceTooLong_portSteps h
  | endGapReached => exact execEndGapReached_portSteps h
  | closingGapReached => exact execClosingGapReached_portSteps h
  | holdWindowExpiry => exact execHoldWindowExpiry_portSteps h
  | guardComplete => exact execGuardComplete_portSteps h
  | repeatPeriodExpiry => exact execRepeatPeriodExpiry_portSteps h
  | driveDone => exact execDriveDone_portSteps h
  | collision => exact execCollision_portSteps h
  | backoffExpiry i => exact execBackoffExpiry_portSteps h
  | deadlineExpiry i => exact execDeadlineExpiry_portSteps h
  | leaseExpiry i => exact execLeaseExpiry_portSteps h
  | select p => exact execSelect_portSteps h
  | deselect p => exact execDeselect_portSteps h
  | serialClockEdge p edge => cases h; exact .step (.clocked p edge)
  | hello p => exact State.takeRequest_portSteps (fun _ => .ok (.refl s) (by simp [State.helloBody_eq])) h
  | openSession p => exact State.takeRequest_portSteps (openReply_sound s p) h
  | closeSession p => exact State.takeRequest_portSteps (closeReply_sound s p) h
  | setAttn p => exact State.takeRequest_portSteps (setAttnReply_sound s p) h
  | noticeFetch p => exact State.takeRequest_portSteps (noticeFetchReply_sound s p) h
  | lineQuery p => exact State.takeRequest_portSteps (fun _ => .ok (.refl s) (by simp [State.lineBody_length])) h
  | profileSet p => exact State.takeRequest_portSteps (profileSetReply_sound s) h
  | profileGet p => exact State.takeRequest_portSteps (profileGetReply_sound s) h
  | submit p => exact State.takeRequest_portSteps (submitReply_sound s p) h
  | keep p => exact State.takeRequest_portSteps (keepReply_sound s p) h
  | release p => exact State.takeRequest_portSteps (releaseReply_sound s p) h
  | cancel p => exact State.takeRequest_portSteps (cancelReply_sound s p) h
  | jobQuery p => exact State.takeRequest_portSteps (jobQueryReply_sound s p) h
  | subscribe p => exact State.takeRequest_portSteps (subscribeReply_sound s p) h
  | unsubscribe p => exact State.takeRequest_portSteps (unsubscribeReply_sound s p) h
  | subEnable p => exact State.takeRequest_portSteps (subEnableReply_sound s p) h
  | subList p =>
    exact State.takeRequest_portSteps (fun _ => .ok (.refl s) ((s.entryListBody_length p).trans (by decide))) h
  | ringSet p => exact State.takeRequest_portSteps (ringSetReply_sound s p) h
  | ringRead p => exact State.takeRequest_portSteps (ringReadReply_sound s p) h
  | ringQuery p => exact State.takeRequest_portSteps (fun _ => .ok (.refl s) (by simp [State.ringBody_length])) h

/-- What every step does to them; the queue of waiting commands is beside. -/
theorem step_portSteps (h : step s = .next t) : s.PortSteps t := by
  obtain rfl | ⟨c, rest, _, h⟩ := step_cases h
  · exact .refl _
  · exact .trans (t := { s with pending := rest }) (.beside rfl rfl) (exec_portSteps h)

end

end Sys2Proof.Machine

section
open Sys2Proof Sys2Proof.Machine

/-- Settles O53: whatever the condition follows changes with a re-evaluation at its port. -/
theorem attentionFollowsItsCondition : Obligations.AttentionFollowsItsCondition :=
  fun _ _ lawful h => (step_portSteps h).keeps (fun _ _ change => change.attentionLawful) lawful

/-- Settles O59: the wires and the answers alone move a transaction, a request or a response, and every result body has
its length by its layout. -/
theorem portsStayConsistent : Obligations.PortsStayConsistent :=
  fun _ _ h => ⟨(step_portSteps h).keeps fun _ _ change => change.portsLawful,
    (step_portSteps h).keeps fun _ _ change => change.responsesLawful⟩

end
end

section
/-! PROOFS. Full reset (R180), SET_ATTN (R178), the wires of a port (R159, R161 to R163, R166) and the judgement of a
request envelope at the deselect (R163 to R167, R170, R182). -/

-- The proofs run one after another, for the memory limit of the check.
set_option Elab.async false

namespace Sys2Proof

/-! ### Codes -/

/-- R182: a code names the request whose code it is. -/
theorem RequestKind.ofCode_eq_some {c : Byte} {k : RequestKind} : RequestKind.ofCode c = some k ↔ k.code = c := by
  constructor
  · intro h
    unfold RequestKind.ofCode at h
    split at h
    all_goals cases h
    all_goals exact BitVec.eq_of_toNat_eq (Eq.symm ‹c.toNat = _›)
  · rintro rfl
    cases k <;> rfl

theorem RequestKind.needsSession_iff {k : RequestKind} : k.needsSession = true ↔ k ≠ .openSession ∧ k ≠ .hello := by
  cases k <;> decide

/-- R182: the longest body has 22 bytes. -/
theorem RequestKind.length_le_of_allowsLength {k : RequestKind} {n : Nat} (allows : k.allowsLength n = true) :
    n ≤ 22 := by
  cases k <;> simp [RequestKind.allowsLength] at allows <;> omega

end Sys2Proof

namespace Sys2Proof.Machine

/-! ### A port's record replaced -/

section
variable {s : State} {p : Port} {f : HostPort → HostPort}

theorem State.modifyPort_eq {h : HostPort} (becomes : f (s.port p) = h) :
    s.modifyPort p f = { s with ports := s.ports.set p h } := by
  rw [← becomes]
  rfl

theorem State.modifyPort_same (same : f (s.port p) = s.port p) : s.modifyPort p f = s := by
  rw [State.modifyPort_eq same]
  simp [State.port]

end

/-! ### SET_ATTN -/

/-- R178: a threshold that is not 1 to 64. -/
theorem setAttnReply_outOfRange (s : State) (p : Port) (tag : Byte) {n : Byte} (out : n.toNat = 0 ∨ 64 < n.toNat) :
    setAttnReply p ⟨.setAttn, tag, [n]⟩ s = Reply.refuse s .badValue := by
  have read : inRange 1 64 (bodyNat [n] 0) = none := if_neg (by simp only [bodyNat, bodyByte, List.getD_cons_zero]; omega)
  rw [setAttnReply, read]

/-- R178: a threshold of 1 to 64. -/
theorem setAttnReply_inRange (s : State) (p : Port) (tag : Byte) {n : Byte} (low : 1 ≤ n.toNat) (high : n.toNat ≤ 64) :
    setAttnReply p ⟨.setAttn, tag, [n]⟩ s =
      { status := .ok, body := [n, boolByte ((s.setThreshold p n.toNat).port p).attn]
        state := s.setThreshold p n.toNat } := by
  have read : inRange 1 64 (bodyNat [n] 0) = some n.toNat := if_pos ⟨low, high⟩
  rw [setAttnReply, read]
  simp only [byte_toNat]

/-! ### Envelopes -/

/-- R188: the sum of bytes is their sum as numbers modulo 256. -/
theorem byteSum_eq_sum (bs : List Byte) : byteSum bs = bs.sum := List.sum_eq_foldl.symm

/-- R168, R181: a response's bytes are its envelope. -/
theorem Response.bytes_isEnvelope (r : Response) : Claims.isEnvelope r r.bytes := by
  refine ⟨_, rfl, ?_⟩
  rw [Response.bytes, List.sum_append, List.sum_singleton, checkByteOf, byteSum_eq_sum]
  abel

/-- R159: bit k of a byte, from the most significant, is the k-th that arrived. -/
theorem byteOfBits_getMsbD {bits : List Bool} (whole : bits.length = 8) {k : Nat} (hk : k < 8) :
    some ((byteOfBits bits).getMsbD k) = bits[k]? := by
  have number (bs : List Bool) : bitsNumber bs = bs.foldr (fun b n => 2 * n + b.toNat) 0 := by
    induction bs with
    | nil => rfl
    | cons b bs ih => rw [bitsNumber, List.foldr_cons, ih, Nat.add_comm]
  have read : byteOfBits bits = byte (bitsNumber bits.reverse) := by
    rw [byteOfBits, number, List.foldr_reverse]
  have last : 7 - k < 8 := by omega
  rw [read, BitVec.getMsbD_eq_getLsbD, decide_eq_true hk, Bool.true_and, byte_getLsbD _ (by omega), bitsNumber_testBit,
    List.getD_eq_getElem?_getD, List.getElem?_reverse (by omega), whole]
  have place : 8 - 1 - (8 - 1 - k) = k := by omega
  rw [place, List.getElem?_eq_getElem (by omega)]
  rfl

/-! ### The edges of SCKn -/

section
variable {h : HostPort} {bit : Bool}

theorem HostPort.clockEdge_rising_high (high : h.clockHigh = true) : h.clockEdge (.rising bit) = h := if_pos high

theorem HostPort.clockEdge_rising (low : h.clockHigh = false) :
    h.clockEdge (.rising bit) = HostPort.takeBit { h with clockHigh := true } bit := if_neg (by simp [low])

theorem HostPort.clockEdge_falling_low (low : h.clockHigh = false) : h.clockEdge .falling = h := if_neg (by simp [low])

theorem HostPort.clockEdge_falling (high : h.clockHigh = true) :
    h.clockEdge .falling = HostPort.presentNext { h with clockHigh := false } := if_pos high

/-- R166: no bit is taken outside a transaction, nor in a refused one. -/
theorem HostPort.takeBit_discards (out : ¬(h.txn = .selected ∧ h.refused = false)) : h.takeBit bit = h := if_neg out

section
variable (selected : h.txn = .selected) (admitted : h.refused = false)
include selected admitted

theorem HostPort.takeBit_keeps (room : h.bitsIn.length < 7) :
    h.takeBit bit = { h with bitsIn := h.bitsIn ++ [bit] } := by
  refine (if_pos ⟨selected, admitted⟩).trans (if_neg ?_)
  simp only [List.length_append, List.length_singleton]
  omega

/-- R159: each eighth bit makes a byte. -/
theorem HostPort.takeBit_completes (seven : h.bitsIn.length = 7) :
    h.takeBit bit = { h with bitsIn := [], received := h.received ++ [byteOfBits (h.bitsIn ++ [bit])] } :=
  (if_pos ⟨selected, admitted⟩).trans (if_pos (by simp [seven]))

end

theorem HostPort.inTransaction_iff : h.inTransaction = true ↔ h.txn = .selected ∨ h.refused = true := by
  simp [HostPort.inTransaction]

/-- R159, R162: the next bit, filler after the last byte. -/
theorem HostPort.presentNext_presents (active : h.txn = .selected ∨ h.refused = true) : h.presentNext = { h with
    outBit := h.outBit + 1
    sdo := some (((h.out[(h.outBit + 1) / 8]?).getD 0).getMsbD ((h.outBit + 1) % 8)) } := by
  rw [HostPort.presentNext, if_pos (HostPort.inTransaction_iff.2 active), outgoingBit, List.getD_eq_getElem?_getD]
  rfl

theorem HostPort.presentNext_idle (idle : ¬(h.txn = .selected ∨ h.refused = true)) : h.presentNext = h :=
  if_neg (mt HostPort.inTransaction_iff.1 idle)

/-! ### The select -/

/-- R161, R162: a transaction begins. -/
theorem HostPort.select_idle (idle : h.txn = .idle) :
    h.select = { h.begin h.stateAndResponse with txn := .selected } := by
  unfold HostPort.select
  rw [idle]

/-- R166: a refused transaction begins. -/
theorem HostPort.select_executing (executing : h.txn = .executing) :
    h.select = { h.begin [Config.stateBusy] with refused := true } := by
  unfold HostPort.select
  rw [executing]

theorem HostPort.stateAndResponse_none (none : h.response = none) : h.stateAndResponse = [0x5A] := by
  rw [HostPort.stateAndResponse, none]
  rfl

theorem HostPort.stateAndResponse_some {r : Response} (some : h.response = some r) :
    h.stateAndResponse = 0xA5 :: r.bytes := by
  rw [HostPort.stateAndResponse, some]
  rfl

theorem execSelect_high {s : State} {p : Port} (high : (s.port p).selectLow = false) :
    execSelect p s = .next (s.modifyPort p HostPort.select) := if_neg (by simp [high])

theorem execDeselect_low {s : State} {p : Port} (low : (s.port p).selectLow = true) :
    execDeselect p s = .next (s.modifyPort p HostPort.deselect) := if_pos low

/-! ### The deselect -/

/-- R166: a refused transaction, or none, is not judged. -/
theorem HostPort.deselect_unjudged (out : h.refused = true ∨ h.txn ≠ .selected) : h.deselect = h.endTransaction := by
  unfold HostPort.deselect
  repeat' split
  · rfl
  · rename_i admitted _ selected
    obtain refused | other := out
    · exact absurd refused admitted
    · exact absurd selected other
  all_goals rfl

theorem HostPort.deselect_judged (selected : h.txn = .selected) (admitted : h.refused = false) :
    h.deselect = h.settle := by
  unfold HostPort.deselect
  rw [if_neg (by simp [admitted]), selected]

theorem HostPort.settle_readOnly (judged : judgeEnvelope h.isOpen h.received = .readOnly) :
    h.settle = { h.endTransaction with txn := .idle } := by rw [HostPort.settle, judged]

theorem HostPort.settle_refuse {code tag : Byte} {status : Status}
    (judged : judgeEnvelope h.isOpen h.received = .refuse code tag status) : h.settle = { h.endTransaction with
      txn := .idle, response := some { code := code, tag := tag, status := status, body := [] } } := by
  rw [HostPort.settle, judged]

theorem HostPort.settle_hand {r : Request} (judged : judgeEnvelope h.isOpen h.received = .hand r) :
    h.settle = { h.endTransaction with txn := .executing, request := some r } := by rw [HostPort.settle, judged]

end

/-! ### The judgement, check by check (R163 to R165) -/

section
variable {isOpen : Bool} {first : Byte} {rest : List Byte}

theorem judgeEnvelope_mark : judgeEnvelope isOpen (0xFF :: rest) = .readOnly := rfl

theorem not_readOnlyMark (length : first.toNat ≤ 254) : first ≠ Config.readOnlyMark := by
  rintro rfl
  exact absurd length (by decide)

/-- R164 check 1. -/
theorem judgeEnvelope_long (long : 31 ≤ first.toNat) (length : first.toNat ≤ 254) :
    judgeEnvelope isOpen (first :: rest) = .refuse ((rest[0]?).getD 0) ((rest[1]?).getD 0) .badLength :=
  (if_neg (not_readOnlyMark length)).trans (if_pos long)

section
variable (length : first.toNat ≤ 30)
include length

/-- R164 check 2. -/
theorem judgeEnvelope_cut (cut : rest.length < first.toNat + 3) :
    judgeEnvelope isOpen (first :: rest) = .refuse ((rest[0]?).getD 0) ((rest[1]?).getD 0) .truncated :=
  (if_neg (not_readOnlyMark (by omega))).trans <| (if_neg (by omega)).trans <|
    if_pos (by rw [List.length_cons]; omega)

variable (whole : first.toNat + 3 ≤ rest.length)
include whole

/-- R164 check 3. -/
theorem judgeEnvelope_sum (sum : (first :: rest.take (first.toNat + 3)).sum ≠ 0) :
    judgeEnvelope isOpen (first :: rest) = .refuse ((rest[0]?).getD 0) ((rest[1]?).getD 0) .badCheck :=
  (if_neg (not_readOnlyMark (by omega))).trans <| (if_neg (by omega)).trans <|
    (if_neg (by rw [List.length_cons]; omega)).trans <| if_pos (by rwa [byteSum_eq_sum])

variable (sum : (first :: rest.take (first.toNat + 3)).sum = 0)
include sum

/-- R164 checks 4 to 6: the envelope is whole, and its code, its body's length and the session decide. -/
theorem judgeEnvelope_whole : judgeEnvelope isOpen (first :: rest) =
    match RequestKind.ofCode ((rest[0]?).getD 0) with
    | none => .refuse ((rest[0]?).getD 0) ((rest[1]?).getD 0) .unknownRequest
    | some k =>
      if k.allowsLength first.toNat = false then .refuse ((rest[0]?).getD 0) ((rest[1]?).getD 0) .badLength
      else if isOpen = false ∧ k.needsSession = true then .refuse ((rest[0]?).getD 0) ((rest[1]?).getD 0) .noSession
      else .hand { kind := k, tag := (rest[1]?).getD 0, body := (rest.drop 2).take first.toNat } :=
  (if_neg (not_readOnlyMark (by omega))).trans <| (if_neg (by omega)).trans <|
    (if_neg (by rw [List.length_cons]; omega)).trans <| if_neg (by rw [byteSum_eq_sum]; exact not_not.2 sum)

/-- R164 check 4. -/
theorem judgeEnvelope_unknown (unknown : ∀ k : RequestKind, k.code ≠ (rest[0]?).getD 0) :
    judgeEnvelope isOpen (first :: rest) = .refuse ((rest[0]?).getD 0) ((rest[1]?).getD 0) .unknownRequest := by
  have none : RequestKind.ofCode ((rest[0]?).getD 0) = none :=
    Option.eq_none_iff_forall_ne_some.2 fun k hk => unknown k (RequestKind.ofCode_eq_some.1 hk)
  rw [judgeEnvelope_whole length whole sum, none]

variable {k : RequestKind} (code : k.code = (rest[0]?).getD 0)
include code

/-- R164 check 5. -/
theorem judgeEnvelope_badLength (bad : k.allowsLength first.toNat = false) :
    judgeEnvelope isOpen (first :: rest) = .refuse ((rest[0]?).getD 0) ((rest[1]?).getD 0) .badLength := by
  rw [judgeEnvelope_whole length whole sum, RequestKind.ofCode_eq_some.2 code]
  exact if_pos bad

variable (allows : k.allowsLength first.toNat = true)
include allows

/-- R164 check 6. -/
theorem judgeEnvelope_noSession (isClosed : isOpen = false) (notOpen : k ≠ .openSession) (notHello : k ≠ .hello) :
    judgeEnvelope isOpen (first :: rest) = .refuse ((rest[0]?).getD 0) ((rest[1]?).getD 0) .noSession := by
  rw [judgeEnvelope_whole length whole sum, RequestKind.ofCode_eq_some.2 code]
  exact (if_neg (by simp [allows])).trans (if_pos ⟨isClosed, RequestKind.needsSession_iff.2 ⟨notOpen, notHello⟩⟩)

/-- R165: any other request is handed on. -/
theorem judgeEnvelope_hands (session : isOpen = true ∨ k = .openSession ∨ k = .hello) :
    judgeEnvelope isOpen (first :: rest) =
      .hand { kind := k, tag := (rest[1]?).getD 0, body := (rest.drop 2).take first.toNat } := by
  have passes : ¬(isOpen = false ∧ k.needsSession = true) := by
    rw [RequestKind.needsSession_iff]
    rintro ⟨isClosed, notOpen, notHello⟩
    obtain isOpen | rfl | rfl := session
    · cases isClosed.symm.trans isOpen
    · exact notOpen rfl
    · exact notHello rfl
  rw [judgeEnvelope_whole length whole sum, RequestKind.ofCode_eq_some.2 code]
  exact (if_neg (by simp [allows])).trans (if_neg passes)

end
end
end Sys2Proof.Machine

section
open Sys2Proof Sys2Proof.Machine

/-- Settles O4, block by block. -/
theorem fullResetClears : Obligations.FullResetClears := by
  intro straps s
  refine ⟨_, rfl, rfl, rfl, rfl, rfl, fun q => ?_, fun i => ⟨State.reset_job i, ?_⟩, fun c => ?_, rfl, rfl, rfl, rfl,
    rfl, rfl, rfl, rfl, rfl, rfl, rfl, rfl, rfl, rfl, rfl, fun e => ?_, fun p => ?_, fun p => ?_, rfl,
    fun p => s.fullReset_port straps p⟩
  · simp [State.profile, State.reset]
  · simp [State.ticket, State.reset]
  · simp [State.reset, Arbiter.reset]
  · simp [State.entry, State.reset]
  · simp [State.reset]
  · simp [State.ring, State.reset]

/-- Settles O30, by the range of the threshold. -/
theorem setAttnSetsThreshold : Obligations.SetAttnSetsThreshold := by
  refine fun s p tag n asks => ⟨fun out => ?_, fun low high => ?_⟩
  · refine (State.takeRequest_asks _ asks).trans ?_
    rw [setAttnReply_outOfRange s p tag out]
    rfl
  · intro level
    have threshold : s.setThreshold p n.toNat =
        { s with ports := s.ports.set p { s.port p with threshold := n.toNat, attn := level } } := by
      rw [State.setThreshold, State.modifyPort_attend]
      rfl
    have attn : ((s.setThreshold p n.toNat).port p).attn = level := by
      rw [threshold]
      simp [State.port]
    refine (State.takeRequest_asks _ asks).trans ?_
    rw [setAttnReply_inRange s p tag low high, attn, threshold]
    rfl

/-- Settles O46, wire by wire. -/
theorem wiresMoveOwnPort : Obligations.WiresMoveOwnPort := by
  intro s p h becomes begun active
  have moves {edge : Edge} {h' : HostPort} (moved : h.clockEdge edge = h') : becomes (.serialClockEdge p edge) h' :=
    congrArg Host.Outcome.next (State.modifyPort_eq moved)
  have stays {edge : Edge} (same : h.clockEdge edge = h) : exec (.serialClockEdge p edge) s = .next s :=
    congrArg Host.Outcome.next (State.modifyPort_same same)
  have begins (high : h.selectLow = false) {h' : HostPort} (begun : h.select = h') : becomes (.select p) h' :=
    (execSelect_high high).trans (congrArg Host.Outcome.next (State.modifyPort_eq begun))
  refine ⟨fun low => if_pos low, fun high idle => ⟨fun none => begins high ?_, fun r some => ?_⟩,
    fun high executing => begins high (HostPort.select_executing executing),
    fun bit high => stays (HostPort.clockEdge_rising_high high), fun bit low out => moves ?_,
    fun bit low selected admitted room => moves ?_, fun bit low selected admitted seven => ?_,
    fun low => stays (HostPort.clockEdge_falling_low low), fun high inside => moves ?_, fun high outside => moves ?_⟩
  · rw [HostPort.select_idle idle, HostPort.stateAndResponse_none none]
    rfl
  · refine ⟨r.bytes, r.bytes_isEnvelope, begins high ?_⟩
    rw [HostPort.select_idle idle, HostPort.stateAndResponse_some some]
    rfl
  · exact (HostPort.clockEdge_rising low).trans (HostPort.takeBit_discards out)
  · exact (HostPort.clockEdge_rising low).trans (HostPort.takeBit_keeps selected admitted room)
  · have whole : (h.bitsIn ++ [bit]).length = 8 := by simp [seven]
    exact ⟨_, fun k hk => byteOfBits_getMsbD whole hk,
      moves ((HostPort.clockEdge_rising low).trans (HostPort.takeBit_completes selected admitted seven))⟩
  · exact (HostPort.clockEdge_falling high).trans (HostPort.presentNext_presents inside)
  · exact (HostPort.clockEdge_falling high).trans (HostPort.presentNext_idle outside)

/-- Settles O47, check by check. -/
theorem deselectJudgesEnvelope : Obligations.DeselectJudgesEnvelope := by
  intro s p h ended becomes
  have deselects (low : h.selectLow = true) {h' : HostPort} (ends : h.deselect = h') : becomes h' :=
    (execDeselect_low low).trans (congrArg Host.Outcome.next (State.modifyPort_eq ends))
  refine ⟨fun high => if_neg (by simp [h, high]), fun low out => deselects low (HostPort.deselect_unjudged out),
    fun low admitted selected => ?_⟩
  have judges {h' : HostPort} (settled : h.settle = h') : becomes h' :=
    deselects low ((HostPort.deselect_judged selected admitted).trans settled)
  refine ⟨fun none => judges (HostPort.settle_readOnly (by rw [none]; rfl)), ?_⟩
  intro first rest received len code tag refusal
  have refuses {status : Status} (judged : judgeEnvelope h.isOpen (first :: rest) = .refuse code tag status) :
      refusal status := judges (HostPort.settle_refuse (by rw [received, judged]))
  refine ⟨fun mark => judges (HostPort.settle_readOnly (by rw [received, mark]; rfl)),
    fun long length => refuses (judgeEnvelope_long long length),
    fun length cut => refuses (judgeEnvelope_cut length cut),
    fun length whole => ⟨fun sum => refuses (judgeEnvelope_sum length whole sum),
      fun sum => ⟨fun unknown => refuses (judgeEnvelope_unknown length whole sum unknown), fun k named =>
        ⟨fun bad => refuses (judgeEnvelope_badLength length whole sum named bad),
          fun allows isClosed notOpen notHello =>
            refuses (judgeEnvelope_noSession length whole sum named allows isClosed notOpen notHello),
          fun allows session => judges (HostPort.settle_hand ?_)⟩⟩⟩⟩
  rw [received]
  exact judgeEnvelope_hands length whole sum named allows session

end
end

section
/-! PROOFS. A request that a host clocks in bit by bit (R159, R163, R181, R182): the commands of one port's wires act on
its record alone, eight bits make their byte, and the bytes received are judged at the deselect. -/

-- The proofs run one after another, for the memory limit of the check.
set_option Elab.async false

namespace Sys2Proof.Machine

/-! ### Runs of one port's clock -/

section
variable {s t : State}

theorem runAll_cons {c : Instr} {cs : List Instr} (h : exec c s = .next t) :
    Claims.runAll (c :: cs) s = Claims.runAll cs t := by
  rw [Claims.runAll, Claims.runAll, ← h]
  rfl

theorem runAll_append {cs cs' : List Instr} (h : Claims.runAll cs s = .next t) :
    Claims.runAll (cs ++ cs') s = Claims.runAll cs' t := by
  rw [Claims.runAll, List.foldl_append]
  exact congrArg (cs'.foldl _) h

/-- R159: edges of SCKn act on their port's record, one after the other. -/
theorem runAll_edges (s : State) (p : Port) (edges : List Edge) :
    Claims.runAll (edges.map (.serialClockEdge p)) s =
      .next (s.modifyPort p fun h => edges.foldl HostPort.clockEdge h) := by
  induction edges generalizing s with
  | nil => exact congrArg Host.Outcome.next (State.modifyPort_same rfl).symm
  | cons edge edges ih =>
    rw [List.map_cons, runAll_cons (t := s.modifyPort p (·.clockEdge edge)) rfl, ih, State.modifyPort_modifyPort]
    rfl

end

/-! ### Bits and bytes -/

/-- The edges of SCKn that clock bits in. -/
def edgesOf (bits : List Bool) : List Edge := bits.flatMap fun b => [.rising b, .falling]

/-- R159: the bits of a byte, most significant first. -/
def bitsOf (b : Byte) : List Bool := (List.range 8).map b.getMsbD

theorem clockIn_eq (p : Port) (b : Byte) : Claims.clockIn p b = (edgesOf (bitsOf b)).map (.serialClockEdge p) := by
  simp [Claims.clockIn, edgesOf, bitsOf, List.map_flatMap, List.flatMap_map]

/-- R159: a byte's bits make the byte. -/
theorem byteOfBits_bitsOf (b : Byte) : byteOfBits (bitsOf b) = b := by
  refine BitVec.eq_of_getMsbD_eq fun k hk => ?_
  have read := byteOfBits_getMsbD (bits := bitsOf b) (by simp [bitsOf]) hk
  have sent : (bitsOf b)[k]? = some (b.getMsbD k) := by simp [bitsOf, hk]
  exact Option.some.inj (read.trans sent)

/-- R159: the port after the edges that clock bytes in. -/
def HostPort.clockBytes (h : HostPort) (bytes : List Byte) : HostPort :=
  (bytes.flatMap fun b => edgesOf (bitsOf b)).foldl HostPort.clockEdge h

theorem runAll_clockIn (s : State) (p : Port) (bytes : List Byte) :
    Claims.runAll (bytes.flatMap (Claims.clockIn p)) s = .next (s.modifyPort p (·.clockBytes bytes)) := by
  have edges : bytes.flatMap (Claims.clockIn p) =
      (bytes.flatMap fun b => edgesOf (bitsOf b)).map (.serialClockEdge p) := by
    rw [List.map_flatMap]
    exact List.flatMap_congr fun b _ => clockIn_eq p b
  rw [edges, runAll_edges]
  rfl

/-- R161, R163: g is port h in a transaction, SCKn low, with the bytes received so far and the bits of the next one. What
the transaction clocks out is left open. -/
def HostPort.Receives (h g : HostPort) (received : List Byte) (bits : List Bool) : Prop :=
  ∃ sdo out outBit, g = { h with
    selectLow := true, clockHigh := false, sdo := sdo, txn := .selected, refused := false, bitsIn := bits
    received := received, out := out, outBit := outBit }

section
variable {h g : HostPort} {received : List Byte} {bits : List Bool}

/-- R161: a select of an idle port begins a transaction. -/
theorem HostPort.receives_select (clock : h.clockHigh = false) (idle : h.txn = .idle) (admitted : h.refused = false) :
    h.Receives h.select [] [] := by
  obtain ⟨_, _⟩ := h
  cases clock
  cases admitted
  rw [HostPort.select_idle idle]
  exact ⟨_, _, _, rfl⟩

/-- R159: bits that do not complete their byte. -/
theorem HostPort.Receives.append_bits {more : List Bool} (receives : h.Receives g received bits)
    (room : bits.length + more.length < 8) :
    h.Receives ((edgesOf more).foldl HostPort.clockEdge g) received (bits ++ more) := by
  induction more generalizing g bits with
  | nil => rwa [List.append_nil]
  | cons b more ih =>
    obtain ⟨sdo, out, outBit, rfl⟩ := receives
    rw [List.length_cons] at room
    rw [List.append_cons]
    refine ih ?_ (by rw [List.length_append, List.length_singleton]; omega)
    rw [HostPort.clockEdge_rising rfl, HostPort.takeBit_keeps rfl rfl (show bits.length < 7 by omega),
      HostPort.clockEdge_falling rfl, HostPort.presentNext_presents (.inl rfl)]
    exact ⟨_, _, _, rfl⟩

/-- R159: the eighth bit completes its byte. -/
theorem HostPort.Receives.eighth (receives : h.Receives g received bits) (seven : bits.length = 7) (b : Bool) :
    h.Receives ((edgesOf [b]).foldl HostPort.clockEdge g) (received ++ [byteOfBits (bits ++ [b])]) [] := by
  obtain ⟨sdo, out, outBit, rfl⟩ := receives
  change h.Receives (HostPort.clockEdge (HostPort.clockEdge _ (.rising b)) .falling) _ _
  rw [HostPort.clockEdge_rising rfl, HostPort.takeBit_completes rfl rfl seven, HostPort.clockEdge_falling rfl,
    HostPort.presentNext_presents (.inl rfl)]
  exact ⟨_, _, _, rfl⟩

/-- R159: a byte. -/
theorem HostPort.Receives.byte (receives : h.Receives g received []) (b : Byte) :
    h.Receives ((edgesOf (bitsOf b)).foldl HostPort.clockEdge g) (received ++ [b]) [] := by
  have parts : bitsOf b = (List.range 7).map b.getMsbD ++ [b.getMsbD 7] := rfl
  have first := receives.append_bits (more := (List.range 7).map b.getMsbD) (by simp)
  have whole := first.eighth (by simp) (b.getMsbD 7)
  rw [List.nil_append, ← parts, byteOfBits_bitsOf] at whole
  rw [parts, edgesOf, List.flatMap_append, List.foldl_append]
  exact whole

/-- R159: bytes one after the other. -/
theorem HostPort.Receives.bytes (receives : h.Receives g received []) (bytes : List Byte) :
    h.Receives (g.clockBytes bytes) (received ++ bytes) [] := by
  induction bytes generalizing g received with
  | nil => rwa [List.append_nil]
  | cons b bytes ih =>
    rw [HostPort.clockBytes, List.flatMap_cons, List.foldl_append, List.append_cons]
    exact ih (receives.byte b)

/-- R159, R161: a port at its select, and then clocked. -/
theorem HostPort.receives_clocked (clock : h.clockHigh = false) (idle : h.txn = .idle) (admitted : h.refused = false)
    (bytes : List Byte) : h.Receives (h.select.clockBytes bytes) bytes [] := by
  have receives := (HostPort.receives_select clock idle admitted).bytes bytes
  rwa [List.nil_append] at receives

/-- R165: a deselect hands on the request that the bytes received hold. -/
theorem HostPort.Receives.deselect {r : Request} (receives : h.Receives g received bits)
    (judged : judgeEnvelope h.isOpen received = .hand r) : g.deselect = { h with
      selectLow := false, clockHigh := false, sdo := none, txn := .executing, refused := false, bitsIn := []
      received := [], out := [], outBit := 0, request := some r } := by
  obtain ⟨sdo, out, outBit, rfl⟩ := receives
  rw [HostPort.deselect_judged rfl rfl, HostPort.settle_hand judged]
  rfl

end

/-- R163, R165, R181: the envelope of a request, with any bytes after it, is judged to be that request. -/
theorem judgeEnvelope_envelope {isOpen : Bool} {k : RequestKind} {tag check : Byte} {body more : List Byte}
    (allows : k.allowsLength body.length = true) (session : isOpen = true ∨ k = .openSession ∨ k = .hello)
    (sum : (BitVec.ofNat 8 body.length :: k.code :: tag :: body ++ [check]).sum = 0) :
    judgeEnvelope isOpen ((BitVec.ofNat 8 body.length :: k.code :: tag :: body ++ [check]) ++ more) =
      .hand { kind := k, tag := tag, body := body } := by
  have short := k.length_le_of_allowsLength allows
  have length : (BitVec.ofNat 8 body.length).toNat = body.length := by
    rw [BitVec.toNat_ofNat]
    exact Nat.mod_eq_of_lt (by omega)
  have envelope : (k.code :: tag :: body ++ [check] ++ more).take (body.length + 3) =
      k.code :: tag :: body ++ [check] := List.take_left' (by simp)
  have sent : ((k.code :: tag :: body ++ [check] ++ more).drop 2).take body.length = body := by
    simp [List.append_assoc]
  have judged := judgeEnvelope_hands (isOpen := isOpen) (first := BitVec.ofNat 8 body.length)
    (rest := k.code :: tag :: body ++ [check] ++ more) (k := k) (by omega) (by simp [length])
    (by rw [length, envelope]; exact sum) rfl (by rwa [length]) session
  rw [length, sent] at judged
  exact judged

end Sys2Proof.Machine

section
open Sys2Proof Sys2Proof.Machine

/-- Settles O48: the select, the edges and the deselect act on the port's record, which receives the bytes that are
judged. -/
theorem requestClockedInIsPending : Obligations.RequestClockedInIsPending := by
  intro s p k tag check body more high clock idle admitted allows session sum bytes
  have judged := judgeEnvelope_envelope (more := more) allows session sum
  have receives := HostPort.receives_clocked clock idle admitted bytes
  have selected : Claims.runAll [.select p] s = .next (s.modifyPort p HostPort.select) :=
    runAll_cons (execSelect_high high)
  have low : (((s.modifyPort p HostPort.select).modifyPort p (·.clockBytes bytes)).port p).selectLow = true := by
    obtain ⟨_, _, _, received⟩ := receives
    rw [State.modifyPort_port_self, State.modifyPort_port_self, received]
  rw [List.append_assoc, runAll_append selected, runAll_append (runAll_clockIn _ p bytes)]
  refine (runAll_cons (c := .deselect p) (execDeselect_low low)).trans (congrArg Host.Outcome.next ?_)
  rw [State.modifyPort_modifyPort, State.modifyPort_modifyPort]
  exact State.modifyPort_eq (receives.deselect judged)

end
end

section
/-! PROOFS. The queue of waiting commands (log 6, 15): a step takes its front, and every command completes (log 21) and
leaves the queue as it was, since every change of the blocks leaves it. -/

-- The proofs run one after another, for the memory limit of the check.
set_option Elab.async false

namespace Sys2Proof.Machine

/-! ### A step and the queue -/

/-- Log 6: the front command runs on the part with the rest of the queue. -/
theorem step_front (c : Instr) (rest : List Instr) (s : State) :
    step { s with pending := c :: rest } = exec c { s with pending := rest } := rfl

/-- Log 6: with nothing waiting the part idles. -/
theorem step_idle {s : State} (empty : s.pending = []) : step s = .next s := by
  unfold step
  rw [empty]

/-! ### The blocks leave the queue -/

section
variable {s t : State}

theorem State.OnlyArbiter.pending (h : s.OnlyArbiter t) : t.pending = s.pending := by rw [h.rest]

theorem State.OnlyReceives.pending (h : s.OnlyReceives t) : t.pending = s.pending := by rw [h.rest]

end

section
variable (s : State) (i : SlotId)

theorem State.endJob_pending (o : JobOutcome) : (s.endJob i o).pending = s.pending := by rw [(s.endJob_rest i o).1]

theorem State.frameStart_pending : (s.frameStart i).pending = s.pending := by rw [s.frameStart_rest i]

/-- R75: a frame's end delivers its event, and then ends the job or sends it on. -/
theorem State.frameEnd_pending (form : Form) : (s.frameEnd i form).pending = s.pending := by
  unfold State.frameEnd
  split
  · rfl
  · rename_i j _
    have told : (if form = .full then s.deliver j.localEvent else s).pending = s.pending := by
      split
      · exact s.deliver_pending _
      · rfl
    refine Eq.trans ?_ told
    generalize (if form = .full then s.deliver j.localEvent else s) = u
    dsimp only
    split
    · exact (State.OnlyArbiter.endSilently u i).pending
    · split
      · exact State.endJob_pending (u.modifyJob i Job.countSent) i _
      · exact (State.OnlyArbiter.enterGap (u.modifyJob i Job.countSent) i).pending

theorem State.collided_pending : (s.collided i).pending = s.pending := by
  unfold State.collided
  split
  · rfl
  · split
    · exact (State.OnlyArbiter.endSilently s i).pending
    · dsimp only
      split
      · exact State.endJob_pending (s.modifyJob i Job.countCollision) i _
      · exact (State.OnlyArbiter.enterBackoff (s.modifyJob i Job.countCollision) i).pending

theorem State.mergeInto_pending (j : Job) (x : Submission) (pr : Profile) (tag : Byte) :
    (s.mergeInto i j x pr tag).pending = s.pending := by
  unfold State.mergeInto
  dsimp only
  split
  · split <;> rfl
  · exact (State.OnlyArbiter.joinTail ((s.modifyJob i fun j => j.merge x pr tag).vacate i) i).pending

theorem State.changeEntry_pending (e : EntryId) (x : Option Entry) : (s.changeEntry e x).pending = s.pending :=
  (State.OnlyReceives.reevaluateListening (s.setEntry e x)).pending

theorem State.closePort_pending (p : Port) (cut : Bool) : (s.closePort p cut).pending = s.pending := by
  generalize jobs : s.closeJobs p cut = u
  rw [State.closePort_eq s p cut jobs]
  rfl

end

/-! ### The replies leave the queue -/

section
variable (s : State) (p : Port) (r : Request)

theorem openReply_pending : (openReply p r s).state.pending = s.pending := by
  unfold openReply
  split <;> rfl

theorem closeReply_pending : (closeReply p r s).state.pending = s.pending := by
  unfold closeReply
  split
  · rfl
  · exact s.closePort_pending p _

theorem setAttnReply_pending : (setAttnReply p r s).state.pending = s.pending := by
  unfold setAttnReply
  split <;> rfl

theorem noticeFetchReply_pending : (noticeFetchReply p r s).state.pending = s.pending := by
  unfold noticeFetchReply
  split <;> rfl

theorem profileSetReply_pending : (profileSetReply r s).state.pending = s.pending := by
  unfold profileSetReply profileDefineReply
  repeat' split
  all_goals rfl

/-- R27, R37: a submission merges, is accepted, or is refused. -/
theorem submitReply_pending : (submitReply p r s).state.pending = s.pending := by
  unfold submitReply State.decideSubmit
  repeat' split
  · rfl
  · rfl
  · exact s.mergeInto_pending _ _ _ _ _
  · rfl
  · rfl
  · exact (State.OnlyArbiter.joinTail (s.fillSlot _ _) _).pending
  · rfl

/-- R42: a request with a handle leaves the queue when its effect on the job it names does. -/
theorem State.withHandle_pending {body : List Byte} {f : SlotId → Job → Reply}
    (hf : ∀ i j, (f i j).state.pending = s.pending) : (s.withHandle p body f).state.pending = s.pending := by
  unfold State.withHandle
  repeat' split
  · rfl
  · exact hf _ _
  · rfl

theorem keepReply_pending : (keepReply p r s).state.pending = s.pending := by
  refine s.withHandle_pending p fun i j => ?_
  repeat' split
  all_goals rfl

theorem releaseReply_pending : (releaseReply p r s).state.pending = s.pending := by
  refine s.withHandle_pending p fun i j => ?_
  repeat' split
  · rfl
  · rfl
  · rfl
  · exact s.endJob_pending i _

theorem cancelReply_pending : (cancelReply p r s).state.pending = s.pending := by
  refine s.withHandle_pending p fun i j => ?_
  split
  · rfl
  · exact s.endJob_pending i _

theorem subscribeReply_pending : (subscribeReply p r s).state.pending = s.pending := by
  unfold subscribeReply
  repeat' split
  · rfl
  · rfl
  · rfl
  · exact s.changeEntry_pending _ _

/-- R130: a request that names an entry leaves the queue when its effect on that entry does. -/
theorem State.withEntry_pending {body : List Byte} {f : EntryId → Entry → Reply}
    (hf : ∀ e x, (f e x).state.pending = s.pending) : (s.withEntry p body f).state.pending = s.pending := by
  unfold State.withEntry
  repeat' split
  · rfl
  · exact hf _ _
  · rfl

theorem subEnableReply_pending : (subEnableReply p r s).state.pending = s.pending := by
  refine s.withEntry_pending p fun e x => ?_
  repeat' split
  · rfl
  · rfl
  · rfl
  · exact s.changeEntry_pending e _

theorem ringSetReply_pending : (ringSetReply p r s).state.pending = s.pending := by
  unfold ringSetReply State.placeRing
  repeat' split
  all_goals rfl

theorem ringReadReply_pending : (ringReadReply p r s).state.pending = s.pending := by
  unfold ringReadReply State.readRing
  repeat' split
  all_goals rfl

end

/-! ### Every command completes -/

/-- Log 21: from s the command leaves a state, with the commands that wait as they were. -/
def State.Completes (s : State) (o : Host.Outcome State Fault Refusal) : Prop :=
  ∃ t, o = .next t ∧ t.pending = s.pending

section
variable {s t : State}

theorem State.Completes.next (queue : t.pending = s.pending) : s.Completes (.next t) := ⟨t, rfl, queue⟩

/-- Log 5: where nothing is due, nothing changes. -/
theorem State.Completes.idle (s : State) : s.Completes (.next s) := .next rfl

/-- R165: taking a request completes when the block's handler leaves the queue. -/
theorem State.takeRequest_completes {k : RequestKind} {p : Port} {h : Request → State → Reply}
    (handler : ∀ r, (h r s).state.pending = s.pending) : s.Completes (s.takeRequest k p h) := by
  obtain none_pending | ⟨r, _, _, answered⟩ := s.takeRequest_cases k p h
  · exact ⟨s, none_pending, rfl⟩
  · exact ⟨_, answered, handler r⟩

end

section
variable (s : State)

theorem execMillisecondTick_completes : s.Completes (execMillisecondTick s) := by
  obtain early | due := Nat.lt_or_ge s.tickCount 1000
  · exact ⟨s, execMillisecondTick_early early, rfl⟩
  · exact ⟨_, execMillisecondTick_due due, rfl⟩

theorem execDetectMark_completes : s.Completes (execDetectMark s) := by
  unfold execDetectMark
  split
  · exact .idle s
  · exact .next (State.OnlyReceives.judgeAtMark s.turnToMark _).pending

theorem execDetectSpace_completes : s.Completes (execDetectSpace s) := by
  unfold execDetectSpace
  split
  · exact .idle s
  · exact .next (State.OnlyReceives.judgeAtSpace s.turnToSpace _).pending

theorem execMarkTooLong_completes : s.Completes (execMarkTooLong s) := by
  unfold execMarkTooLong
  split
  · exact .next (State.OnlyReceives.markTooLong s).pending
  · exact .idle s

theorem execLeaderSpaceTooLong_completes : s.Completes (execLeaderSpaceTooLong s) := by
  unfold execLeaderSpaceTooLong
  repeat' split
  · exact .next (State.OnlyReceives.noise s).pending
  all_goals exact .idle s

theorem execEndGapReached_completes : s.Completes (execEndGapReached s) := by
  unfold execEndGapReached
  repeat' split
  · exact .next (State.OnlyReceives.closeDecode s _ _).pending
  all_goals exact .idle s

theorem execClosingGapReached_completes : s.Completes (execClosingGapReached s) := by
  unfold execClosingGapReached
  repeat' split
  · exact .next (State.setDecoder_pending s _)
  all_goals exact .idle s

theorem execHoldWindowExpiry_completes : s.Completes (execHoldWindowExpiry s) := by
  unfold execHoldWindowExpiry
  repeat' split
  · exact .next (State.OnlyReceives.endHold s _).pending
  all_goals exact .idle s

theorem execGuardComplete_completes : s.Completes (execGuardComplete s) := by
  unfold execGuardComplete
  repeat' split
  · exact .next (s.frameStart_pending _)
  · exact .next (s.frameStart_pending _)
  all_goals exact .idle s

theorem execRepeatPeriodExpiry_completes : s.Completes (execRepeatPeriodExpiry s) := by
  unfold execRepeatPeriodExpiry
  repeat' split
  · exact .next (s.endPeriod.frameStart_pending _)
  · exact .next rfl
  all_goals exact .idle s

theorem execDriveDone_completes : s.Completes (execDriveDone s) := by
  unfold execDriveDone
  repeat' split
  · exact .next (s.stopDrive.frameEnd_pending _ _)
  all_goals exact .idle s

theorem execCollision_completes : s.Completes (execCollision s) := by
  unfold execCollision
  repeat' split
  · exact .next (s.stopDrive.collided_pending _)
  all_goals exact .idle s

theorem execBackoffExpiry_completes (i : SlotId) : s.Completes (execBackoffExpiry i s) := by
  unfold execBackoffExpiry
  split
  · exact .next (State.OnlyArbiter.joinHead ((s.vacate i).modifyJob i _) i).pending
  · exact .idle s

theorem execDeadlineExpiry_completes (i : SlotId) : s.Completes (execDeadlineExpiry i s) := by
  unfold execDeadlineExpiry
  split
  · exact .next (s.endJob_pending i _)
  · exact .idle s

theorem execLeaseExpiry_completes (i : SlotId) : s.Completes (execLeaseExpiry i s) := by
  unfold execLeaseExpiry
  repeat' split
  · exact .next (s.modifyJob_pending i _)
  · exact .next (s.endJob_pending i _)
  · exact .idle s

theorem execSelect_completes (p : Port) : s.Completes (execSelect p s) := by
  unfold execSelect
  split
  · exact .idle s
  · exact .next (s.modifyPort_pending p _)

theorem execDeselect_completes (p : Port) : s.Completes (execDeselect p s) := by
  unfold execDeselect
  split
  · exact .next (s.modifyPort_pending p _)
  · exact .idle s

/-- Log 6, 15, 21: FULL_RESET too keeps the queue, which is outside the part. -/
theorem exec_completes (c : Instr) : s.Completes (exec c s) := by
  cases c with
  | fullReset straps => exact .next rfl
  | lineTick => exact .next rfl
  | millisecondTick => exact execMillisecondTick_completes s
  | detectMark => exact execDetectMark_completes s
  | detectSpace => exact execDetectSpace_completes s
  | markTooLong => exact execMarkTooLong_completes s
  | leaderSpaceTooLong => exact execLeaderSpaceTooLong_completes s
  | endGapReached => exact execEndGapReached_completes s
  | closingGapReached => exact execClosingGapReached_completes s
  | holdWindowExpiry => exact execHoldWindowExpiry_completes s
  | guardComplete => exact execGuardComplete_completes s
  | repeatPeriodExpiry => exact execRepeatPeriodExpiry_completes s
  | driveDone => exact execDriveDone_completes s
  | collision => exact execCollision_completes s
  | backoffExpiry i => exact execBackoffExpiry_completes s i
  | deadlineExpiry i => exact execDeadlineExpiry_completes s i
  | leaseExpiry i => exact execLeaseExpiry_completes s i
  | select p => exact execSelect_completes s p
  | deselect p => exact execDeselect_completes s p
  | serialClockEdge p edge => exact .next (s.modifyPort_pending p _)
  | hello p => exact State.takeRequest_completes fun _ => rfl
  | openSession p => exact State.takeRequest_completes (openReply_pending s p)
  | closeSession p => exact State.takeRequest_completes (closeReply_pending s p)
  | setAttn p => exact State.takeRequest_completes (setAttnReply_pending s p)
  | noticeFetch p => exact State.takeRequest_completes (noticeFetchReply_pending s p)
  | lineQuery p => exact State.takeRequest_completes fun _ => rfl
  | profileSet p => exact State.takeRequest_completes (profileSetReply_pending s)
  | profileGet p => exact State.takeRequest_completes fun r => by rw [profileGetReply_state]
  | submit p => exact State.takeRequest_completes (submitReply_pending s p)
  | keep p => exact State.takeRequest_completes (keepReply_pending s p)
  | release p => exact State.takeRequest_completes (releaseReply_pending s p)
  | cancel p => exact State.takeRequest_completes (cancelReply_pending s p)
  | jobQuery p => exact State.takeRequest_completes fun _ => s.withHandle_pending p fun _ _ => rfl
  | subscribe p => exact State.takeRequest_completes (subscribeReply_pending s p)
  | unsubscribe p =>
    exact State.takeRequest_completes fun _ => s.withEntry_pending p fun e _ => s.changeEntry_pending e none
  | subEnable p => exact State.takeRequest_completes (subEnableReply_pending s p)
  | subList p => exact State.takeRequest_completes fun _ => rfl
  | ringSet p => exact State.takeRequest_completes (ringSetReply_pending s p)
  | ringRead p => exact State.takeRequest_completes (ringReadReply_pending s p)
  | ringQuery p => exact State.takeRequest_completes fun _ => rfl

end

end Sys2Proof.Machine

section
open Sys2Proof Sys2Proof.Machine

/-- Settles O1: the two cases of a step. -/
theorem frontCommandRuns : Obligations.FrontCommandRuns := ⟨step_front, fun _ => step_idle⟩

/-- Settles O2: every command has its meaning, and all that it does it does to the blocks. -/
theorem everyCommandCompletes : Obligations.EveryCommandCompletes := fun c s => exec_completes s c

end
end
